-- ==== Sys2Proof/Word.lean ====
section
/-! DEFINITION. The two word types of the block (00_scope.md R9): `u8` and `u16`, both unsigned. -/

namespace Sys2Proof

/-- `u8`, a byte (R9). -/
abbrev Byte := BitVec 8

/-- `u16` (R9). -/
abbrev Word := BitVec 16

end Sys2Proof
end

