-- ==== Sys2Proof/Config.lean ====
section
/-! DEFINITION. The implementation parameters of 00_scope.md R7, the reference configuration, and the free
values of the registers the spec leaves unspecified. -/

namespace Sys2Proof

/-- The two readings of "polynomial 0x1021, processed LSB-first" (40_crc.md R100). -/
inductive CrcAlgo where
  | reflected
  | raw
deriving DecidableEq, Repr

/-- The four command kinds, the KIND field of CMD.ENC and RSP.DEC (30_encoding.md R86). -/
inductive Kind where
  | read
  | write
  | toggle
  | i2cWrite
deriving DecidableEq, Repr

/-- CRC_POLY's two shift constants (R100), fixed by the source's 0x1021. -/
def crcConstReflected : Word := 0x8408#16
def crcConstRaw : Word := 0x1021#16

/-- BROADCAST_ID (R7, fixed). -/
def broadcastId : Byte := 0xFF#8

/-- INVALID_PIN_CODE (R7, fixed). -/
def invalidPinCode : Byte := 0x03#8

/-- MAX_BODY (R7, fixed): the longest body a 16-bit LEN can declare. -/
def maxBody : Nat := 65535

/-- MAX_I2C_DATA (R7, R82): MAX_BODY less the three bytes before the data. -/
def maxI2cData : Nat := 65532

/-- The result code that 44_response_decoder.md R205 fixes by the source's example. -/
def nackOnAddressCode : Byte := 0x02#8

/-- The decided parameters of R7 (10_state.md R35: parameters, not state; no operation changes them), with
`flushOnReset` = TRANSPORT_FLUSH_ON_RESET (70_reset_and_hazards.md R271).
A flag position is the bit of its flags byte that carries the field (30_encoding.md R80). -/
structure Config where
  crcAlgo : CrcAlgo
  crcInit : Word
  crcXorOut : Word
  pStart : Byte
  pEnd : Byte
  typeRead : Byte
  typeWrite : Byte
  typeToggle : Byte
  typeI2cWrite : Byte
  respTag : Byte
  typeError : Byte
  readPullupBit : Fin 8
  readPulldownBit : Fin 8
  readAnalogBit : Fin 8
  readInvertBit : Fin 8
  readDirectBit : Fin 8
  writeAnalogBit : Fin 8
  writeInvertBit : Fin 8
  i2cStopBit : Fin 8
  i2cSuccess : Byte
  i2cDataTooLong : Byte
  i2cNackOnData : Byte
  i2cOther : Byte
  i2cTimeout : Byte
  flushOnReset : Bool
deriving DecidableEq, Repr

/-- The reference configuration of R7 (decisions D4 to D12, D20). `flushOnReset` has no reference value
(D29, OPEN): `false` here is a DESIGN CHOICE, notes/assumptions/13.md. -/
def Config.reference : Config where
  crcAlgo := .reflected
  crcInit := 0x0000#16
  crcXorOut := 0x0000#16
  pStart := 0x02#8
  pEnd := 0x03#8
  typeRead := 0x01#8
  typeWrite := 0x02#8
  typeToggle := 0x03#8
  typeI2cWrite := 0x04#8
  respTag := 0x80#8
  typeError := 0xFF#8
  readPullupBit := 0
  readPulldownBit := 1
  readAnalogBit := 2
  readInvertBit := 3
  readDirectBit := 4
  writeAnalogBit := 0
  writeInvertBit := 1
  i2cStopBit := 0
  i2cSuccess := 0x00#8
  i2cDataTooLong := 0x01#8
  i2cNackOnData := 0x03#8
  i2cOther := 0x04#8
  i2cTimeout := 0x05#8
  flushOnReset := false

/-- Free values: what an 8-bit RX register holds where 10_state.md R32 and 70_reset_and_hazards.md R270 say
"unspecified". No body: nothing can be proved of them (notes/assumptions/10.md). -/
opaque Config.freeByte : Nat → Byte

/-- Free values of the 16-bit RX registers (R32, R270; notes/assumptions/10.md). -/
opaque Config.freeWord : Nat → Word

end Sys2Proof
end

