-- ==== Sys2Proof/Machine/Flags.lean ====
section
/-! DEFINITION. The flags bytes of request bodies (30_encoding.md R80), every one the spec gives. The block has no
condition-code register (10_state.md R23), so there is no other flag computation. -/

namespace Sys2Proof

/-- `zext_8(b) << pos` (R80; 43_command_encoder.md R181). -/
def flagBit (pos : Fin 8) (b : Bool) : Byte := (if b then 1#8 else 0#8) <<< pos.val

/-- The flags byte of a Read request; unlisted bits are 0 (R80, R181). -/
def readFlags (c : Config) (pullup pulldown analog invert direct : Bool) : Byte :=
  flagBit c.readPullupBit pullup ||| flagBit c.readPulldownBit pulldown ||| flagBit c.readAnalogBit analog
    ||| flagBit c.readInvertBit invert ||| flagBit c.readDirectBit direct

/-- The flags byte of a Write request (R80, R182). -/
def writeFlags (c : Config) (analog invert : Bool) : Byte :=
  flagBit c.writeAnalogBit analog ||| flagBit c.writeInvertBit invert

/-- The flags byte of an I2CWrite request (R80, R184). -/
def i2cFlags (c : Config) (stop : Bool) : Byte := flagBit c.i2cStopBit stop

/-- The field a flags byte carries at a position (R80). -/
def flagField (pos : Fin 8) (flags : Byte) : Bool := flags.getLsbD pos.val

end Sys2Proof
end

