-- ==== Sys2Proof/Machine/Operands.lean ====
section
/-! DEFINITION. Operand assembly: byte order (20_memory.md R50, 30_encoding.md R81), TYPE codes and the
response tagging rule (R77, R78), and the layouts of bodies and frames (R70, R75, R76). -/

namespace Sys2Proof

/-- `v[15:8]`, the byte sent first (R50, R81). -/
def hiByte (v : Word) : Byte := BitVec.extractLsb' 8 8 v

/-- `v[7:0]` (R81). -/
def loByte (v : Word) : Byte := BitVec.extractLsb' 0 8 v

/-- `zext_16(hi) << 8 OR zext_16(lo)` (R81; 42_deframer.md R145, R148). -/
def joinBytes (hi lo : Byte) : Word := (hi.setWidth 16 <<< 8) ||| lo.setWidth 16

/-- The digital view of a Read value (44_response_decoder.md R209): `value[7:0]`. -/
def digitalView (value : Word) : Byte := loByte value

/-- The analog view of a Read value (R209): `value[15:0]`. -/
def analogView (value : Word) : Word := value

/-- The LEN field of a body (R71): its byte count as 16 bits. -/
def lenField (body : List Byte) : Word := BitVec.ofNat 16 body.length

/-- `s[i]` of R10, for an index the caller knows to lie inside the sequence. -/
def byteAt (s : List Byte) (i : Nat) : Byte := s.getD i 0#8

/-- The request TYPE of a command kind (R77). -/
def Config.requestType (c : Config) : Kind → Byte
  | .read => c.typeRead
  | .write => c.typeWrite
  | .toggle => c.typeToggle
  | .i2cWrite => c.typeI2cWrite

/-- The response tagging rule (R78): `RESP(t) = t OR RESP_TAG`, the one function both directions use. -/
def Config.resp (c : Config) (t : Byte) : Byte := t ||| c.respTag

/-- The response TYPE expected for a command kind, computed from its request TYPE (R78). -/
def Config.responseType (c : Config) (k : Kind) : Byte := c.resp (c.requestType k)

/-- The request TYPEs, in the order of R77. -/
def Config.requestTypes (c : Config) : List Byte :=
  [c.typeRead, c.typeWrite, c.typeToggle, c.typeI2cWrite]

/-- The response TYPEs of R8 (2), TYPE_ERROR last. -/
def Config.responseTypes (c : Config) : List Byte :=
  [c.resp c.typeRead, c.resp c.typeWrite, c.resp c.typeToggle, c.resp c.typeI2cWrite, c.typeError]

/-- A Read request body (30_encoding.md R75, R181). -/
def readBody (c : Config) (pin : Byte) (pullup pulldown analog invert direct : Bool) : List Byte :=
  [c.typeRead, pin, readFlags c pullup pulldown analog invert direct]

/-- A Write request body (R75, R182): the value is sent whole, most significant byte first. -/
def writeBody (c : Config) (pin : Byte) (value : Word) (analog invert : Bool) : List Byte :=
  [c.typeWrite, pin, hiByte value, loByte value, writeFlags c analog invert]

/-- A Toggle request body (R75, R183). -/
def toggleBody (c : Config) (pin : Byte) : List Byte := [c.typeToggle, pin]

/-- An I2CWrite request body (R75, R184): data verbatim after the flags. -/
def i2cBody (c : Config) (address : Byte) (data : List Byte) (stop : Bool) : List Byte :=
  [c.typeI2cWrite, address, i2cFlags c stop] ++ data

/-- The length of a response body of each kind (R76); it is exact (44_response_decoder.md R200). -/
def responseLength : Kind → Nat
  | .read => 3
  | .write => 1
  | .toggle => 2
  | .i2cWrite => 2

/-- The bytes of a frame (R70) with a given checksum and last byte: START, SENDER_ID, RECEIVER_ID, LEN_HI,
LEN_LO, BODY, CHK_HI, CHK_LO, END. -/
def frameLayout (c : Config) (sender receiver : Byte) (body : List Byte) (checksum : Word) (endByte : Byte) :
    List Byte :=
  [c.pStart, sender, receiver, hiByte (lenField body), loByte (lenField body)] ++ body ++
    [hiByte checksum, loByte checksum, endByte]

end Sys2Proof
end

