-- ==== Sys2Proof/Syntax.lean ====
section
/-! DEFINITION. The instructions: one constructor per row of spec/opcode_table.json. -/

namespace Sys2Proof

/-- What can be presented to the block. The first fifteen rows are operations of the operation interface
(30_encoding.md R86); the last ten are the wire formats of the table: request bodies (R75), response bodies
(R76) and the frame (R70), with the fields their bytes carry (notes/assumptions/5.md). -/
inductive Instr where
  /-- CRC.CLEAR, 40_crc.md R103. -/
  | crcClear
  /-- CRC.UPDATE b, R104. -/
  | crcUpdate (b : Byte)
  /-- CRC.READ, R105. -/
  | crcRead
  /-- FRAME.ENC, 41_framer.md R120. -/
  | frameEnc (sender receiver : Byte) (body : List Byte)
  /-- FRAME.DEC, 42_deframer.md R140. -/
  | frameDec (ownId : Byte)
  /-- CMD.ENC Read, 43_command_encoder.md R181. -/
  | cmdEncRead (pin : Byte) (pullup pulldown analog invert direct : Bool)
  /-- CMD.ENC Write, R182. -/
  | cmdEncWrite (pin : Byte) (value : Word) (analog invert : Bool)
  /-- CMD.ENC Toggle, R183. -/
  | cmdEncToggle (pin : Byte)
  /-- CMD.ENC I2CWrite, R184. -/
  | cmdEncI2cWrite (address : Byte) (data : List Byte) (stop : Bool)
  /-- RSP.DEC Read, 44_response_decoder.md R200, R201. -/
  | rspDecRead (body : List Byte)
  /-- RSP.DEC Write, R200, R202. -/
  | rspDecWrite (body : List Byte)
  /-- RSP.DEC Toggle, R200, R203. -/
  | rspDecToggle (body : List Byte)
  /-- RSP.DEC I2CWrite, R200, R204. -/
  | rspDecI2cWrite (body : List Byte)
  /-- The reserved OPC 0x7, 60_exceptions.md R233. -/
  | reservedOpc7
  /-- A reserved OPC 0x8 to 0xF, R233; `low` is its low three bits (the table's row fixes bit 5 only). -/
  | reservedOpcHigh (low : BitVec 3)
  /-- A Read request body, R75, R181. -/
  | reqRead (pin : Byte) (pullup pulldown analog invert direct : Bool)
  /-- A Write request body, R75, R182. -/
  | reqWrite (pin : Byte) (value : Word) (analog invert : Bool)
  /-- A Toggle request body, R75, R183. -/
  | reqToggle (pin : Byte)
  /-- An I2CWrite request body, R75, R82, R184. -/
  | reqI2cWrite (address : Byte) (data : List Byte) (stop : Bool)
  /-- A Read response body, R76, R201. -/
  | rspRead (value : Word)
  /-- A Write response body, R76, R202. -/
  | rspWrite
  /-- A Toggle response body, R76, R203. -/
  | rspToggle (newValue : Byte)
  /-- An I2CWrite response body, R76, R204. -/
  | rspI2cWrite (resultCode : Byte)
  /-- An Error response body, R76, R206. -/
  | rspError (errorCode : Byte)
  /-- A frame on the wire, R70, R73; its checksum and its last byte are as they arrive
  (notes/assumptions/25.md). -/
  | sdspFrame (sender receiver : Byte) (body : List Byte) (checksum : Word) (endByte : Byte)
deriving DecidableEq, Repr

end Sys2Proof
end

