-- ==== Sys2Proof/WellFormed.lean ====
section
/-! DEFINITION. Which configurations are well-formed (00_scope.md R8) and which instructions are. -/

namespace Sys2Proof

/-- R8 (1): the request TYPEs are pairwise distinct. -/
def Config.requestTypesDistinct (c : Config) : Bool := decide c.requestTypes.Nodup

/-- R8 (2): the response TYPEs and TYPE_ERROR are pairwise distinct. -/
def Config.responseTypesDistinct (c : Config) : Bool := decide c.responseTypes.Nodup

/-- R8 (3), which R8 says only the reference tagging rule needs: under RESP_TAG = 0x80 every request TYPE has
bit 7 clear (notes/assumptions/3.md). -/
def Config.requestTypesUntagged (c : Config) : Bool :=
  c.respTag != 0x80#8 || c.requestTypes.all (fun t => !t.getLsbD 7)

/-- 43_command_encoder.md R185: in a well-formed configuration no request TYPE equals TYPE_ERROR or any RESP
value (notes/assumptions/2.md). -/
def Config.requestsAreNoResponses (c : Config) : Bool :=
  c.requestTypes.all (fun t => !c.responseTypes.contains t)

/-- 93_implementation_defined.md row 3: the flag positions of one flags byte are a permutation, so distinct
(notes/assumptions/2.md). -/
def Config.flagPositionsDistinct (c : Config) : Bool :=
  decide [c.readPullupBit, c.readPulldownBit, c.readAnalogBit, c.readInvertBit, c.readDirectBit].Nodup &&
    decide [c.writeAnalogBit, c.writeInvertBit].Nodup

/-- 44_response_decoder.md R205: the I2C result table has one row per code, 0x02 among them
(notes/assumptions/2.md). -/
def Config.i2cCodesDistinct (c : Config) : Bool :=
  decide [c.i2cSuccess, c.i2cDataTooLong, nackOnAddressCode, c.i2cNackOnData, c.i2cOther, c.i2cTimeout].Nodup

/-- A well-formed configuration (R8). R8 (4), that CRC_ALGO is one of two values, holds by its type. -/
def Config.wf (c : Config) : Bool :=
  c.requestTypesDistinct && c.responseTypesDistinct && c.requestTypesUntagged && c.requestsAreNoResponses &&
    c.flagPositionsDistinct && c.i2cCodesDistinct

/-- A well-formed instruction: what the wire formats can hold (30_encoding.md R70, R82). An operation's
operands are typed and not limited: FRAME.ENC and CMD.ENC answer a longer body with an error of their own
(41_framer.md R120, 43_command_encoder.md R184). -/
def Instr.wellFormed : Instr → Bool
  | .crcClear => true
  | .crcUpdate _ => true
  | .crcRead => true
  | .frameEnc _ _ _ => true
  | .frameDec _ => true
  | .cmdEncRead _ _ _ _ _ _ => true
  | .cmdEncWrite _ _ _ _ => true
  | .cmdEncToggle _ => true
  | .cmdEncI2cWrite _ _ _ => true
  | .rspDecRead _ => true
  | .rspDecWrite _ => true
  | .rspDecToggle _ => true
  | .rspDecI2cWrite _ => true
  | .reservedOpc7 => true
  | .reservedOpcHigh _ => true
  | .reqRead _ _ _ _ _ _ => true
  | .reqWrite _ _ _ _ => true
  | .reqToggle _ => true
  | .reqI2cWrite _ data _ => decide (data.length ≤ maxI2cData)
  | .rspRead _ => true
  | .rspWrite => true
  | .rspToggle _ => true
  | .rspI2cWrite _ => true
  | .rspError _ => true
  | .sdspFrame _ _ body _ _ => decide (body.length ≤ maxBody)

end Sys2Proof
end

