-- ==== Sys2Proof/Decode.lean ====
section
/-! DEFINITION. The decoder of what is presented to the block, the encoder, and the reading of one word of
spec/opcode_table.json. The spec gives bytes to the OPC and KIND of an operation and to bodies and frames; how the
typed operands of an operation are laid out as bytes is the model's own (notes/assumptions/4.md). -/

namespace Sys2Proof

/-- Where bytes are presented: the operation interface (30_encoding.md R86), a request body, a response body, or
the wire (R88: an `op`, `req_body`, `rsp_body` or `frame` row is matched in its own place;
notes/assumptions/6.md). -/
inductive Port where
  | op
  | reqBody
  | rspBody
  | frame
deriving DecidableEq, Repr

/-- Bytes presented at one place. -/
structure Issue where
  port : Port
  bytes : List Byte
deriving DecidableEq, Repr

/-- Why bytes are no instruction. -/
inductive DecodeError where
  /-- No byte at all. -/
  | empty
  /-- An operation byte above 0x3F: OPC and KIND are six bits (R88). -/
  | notSixBits (b : Byte)
  /-- Fewer or more operand bytes than the operation has operands (R86). -/
  | wrongOperands
  /-- A Boolean operand that is neither 0 nor 1 (R87). -/
  | notBoolean (b : Byte)
  /-- A body whose first byte is no TYPE of its direction (R77, R83(c)). -/
  | unassignedType (b : Byte)
  /-- A body whose length is not that of its row (R88). -/
  | wrongBodyLength
  /-- A frame whose first byte is not P_START (R73, R88). -/
  | notStart (b : Byte)
  /-- Bytes that are not exactly the 8 + LEN of one frame (R70, R73). -/
  | wrongFrameLength
deriving DecidableEq, Repr

/-! ### Operations -/

/-- The six-bit operation code (R88): `OPC << 2 | KIND`. -/
def opByte (opc kind : Nat) : Byte := BitVec.ofNat 8 (opc * 4 + kind)

/-- OPC, bits 5 to 2 of the operation code (R86, R88). -/
def opcOf (b : Byte) : Nat := b.toNat / 4

/-- KIND, bits 1 to 0 (R86, R88). -/
def kindOf (b : Byte) : Nat := b.toNat % 4

/-- A Boolean operand is one byte, 0 or 1 (R87; notes/assumptions/4.md). -/
def boolByte (b : Bool) : Byte := if b then 1#8 else 0#8

/-- Reads a Boolean operand. -/
def readBool (b : Byte) : Except DecodeError Bool :=
  if b = 0#8 then .ok false else if b = 1#8 then .ok true else .error (.notBoolean b)

/-- Operands of an operation that has none. -/
def decodeNoOperand (i : Instr) : List Byte → Except DecodeError Instr
  | [] => .ok i
  | _ :: _ => .error .wrongOperands

def decodeCrcUpdate : List Byte → Except DecodeError Instr
  | [b] => .ok (.crcUpdate b)
  | _ => .error .wrongOperands

def decodeFrameEnc : List Byte → Except DecodeError Instr
  | sender :: receiver :: body => .ok (.frameEnc sender receiver body)
  | _ => .error .wrongOperands

def decodeFrameDec : List Byte → Except DecodeError Instr
  | [ownId] => .ok (.frameDec ownId)
  | _ => .error .wrongOperands

def decodeCmdEncRead : List Byte → Except DecodeError Instr
  | [pin, pullup, pulldown, analog, invert, direct] => do
    return .cmdEncRead pin (← readBool pullup) (← readBool pulldown) (← readBool analog) (← readBool invert)
      (← readBool direct)
  | _ => .error .wrongOperands

def decodeCmdEncWrite : List Byte → Except DecodeError Instr
  | [pin, hi, lo, analog, invert] => do
    return .cmdEncWrite pin (joinBytes hi lo) (← readBool analog) (← readBool invert)
  | _ => .error .wrongOperands

def decodeCmdEncToggle : List Byte → Except DecodeError Instr
  | [pin] => .ok (.cmdEncToggle pin)
  | _ => .error .wrongOperands

def decodeCmdEncI2cWrite : List Byte → Except DecodeError Instr
  | address :: stop :: data => do return .cmdEncI2cWrite address data (← readBool stop)
  | _ => .error .wrongOperands

/-- CMD.ENC selects its command by KIND (43_command_encoder.md R180). -/
def decodeCmdEnc (kind : Nat) (args : List Byte) : Except DecodeError Instr :=
  match kind with
  | 0 => decodeCmdEncRead args
  | 1 => decodeCmdEncWrite args
  | 2 => decodeCmdEncToggle args
  | _ => decodeCmdEncI2cWrite args

/-- RSP.DEC selects the expected kind by KIND (44_response_decoder.md R200). -/
def decodeRspDec (kind : Nat) (body : List Byte) : Instr :=
  match kind with
  | 0 => .rspDecRead body
  | 1 => .rspDecWrite body
  | 2 => .rspDecToggle body
  | _ => .rspDecI2cWrite body

/-- The operation that an operation code selects, on its operand bytes (R86). KIND is ignored by every operation
but CMD.ENC and RSP.DEC (R88). A reserved OPC is decided before any operand is looked at
(60_exceptions.md R235(d)). -/
def decodeOpcode (b : Byte) (args : List Byte) : Except DecodeError Instr :=
  match opcOf b with
  | 0 => decodeNoOperand .crcClear args
  | 1 => decodeCrcUpdate args
  | 2 => decodeNoOperand .crcRead args
  | 3 => decodeFrameEnc args
  | 4 => decodeFrameDec args
  | 5 => decodeCmdEnc (kindOf b) args
  | 6 => .ok (decodeRspDec (kindOf b) args)
  | 7 => .ok .reservedOpc7
  | n => .ok (.reservedOpcHigh (BitVec.ofNat 3 (n - 8)))

/-- An operation: its code, then its operands. -/
def decodeOp : List Byte → Except DecodeError Instr
  | [] => .error .empty
  | b :: args => if b.toNat < 64 then decodeOpcode b args else .error (.notSixBits b)

/-! ### Request bodies

A row is matched on its TYPE byte and its length alone (30_encoding.md R88). A flag bit that no field owns is never read
(93_implementation_defined.md row 4; notes/assumptions/17.md). -/

/-- REQ_READ after its TYPE byte (R75, R80). -/
def decodeReqRead (c : Config) : List Byte → Except DecodeError Instr
  | [pin, flags] =>
    .ok (.reqRead pin (flagField c.readPullupBit flags) (flagField c.readPulldownBit flags)
      (flagField c.readAnalogBit flags) (flagField c.readInvertBit flags) (flagField c.readDirectBit flags))
  | _ => .error .wrongBodyLength

/-- REQ_WRITE after its TYPE byte (R75, R80, R81). -/
def decodeReqWrite (c : Config) : List Byte → Except DecodeError Instr
  | [pin, hi, lo, flags] =>
    .ok (.reqWrite pin (joinBytes hi lo) (flagField c.writeAnalogBit flags) (flagField c.writeInvertBit flags))
  | _ => .error .wrongBodyLength

/-- REQ_TOGGLE after its TYPE byte (R75). -/
def decodeReqToggle : List Byte → Except DecodeError Instr
  | [pin] => .ok (.reqToggle pin)
  | _ => .error .wrongBodyLength

/-- REQ_IIC_WRITE after its TYPE byte: the data length is `len(body) - 3`, at most MAX_I2C_DATA (R82). -/
def decodeReqI2cWrite (c : Config) : List Byte → Except DecodeError Instr
  | address :: flags :: data =>
    if data.length ≤ maxI2cData then .ok (.reqI2cWrite address data (flagField c.i2cStopBit flags))
    else .error .wrongBodyLength
  | _ => .error .wrongBodyLength

/-- A request body, selected by its TYPE byte (R74, R75). -/
def decodeReqBody (c : Config) : List Byte → Except DecodeError Instr
  | [] => .error .empty
  | t :: rest =>
    if t = c.typeRead then decodeReqRead c rest
    else if t = c.typeWrite then decodeReqWrite c rest
    else if t = c.typeToggle then decodeReqToggle rest
    else if t = c.typeI2cWrite then decodeReqI2cWrite c rest
    else .error (.unassignedType t)

/-! ### Response bodies -/

/-- RSP_READ after its TYPE byte (R76, R81). -/
def decodeRspRead : List Byte → Except DecodeError Instr
  | [hi, lo] => .ok (.rspRead (joinBytes hi lo))
  | _ => .error .wrongBodyLength

/-- RSP_WRITE after its TYPE byte (R76). -/
def decodeRspWrite : List Byte → Except DecodeError Instr
  | [] => .ok .rspWrite
  | _ :: _ => .error .wrongBodyLength

/-- RSP_TOGGLE after its TYPE byte (R76). -/
def decodeRspToggle : List Byte → Except DecodeError Instr
  | [newValue] => .ok (.rspToggle newValue)
  | _ => .error .wrongBodyLength

/-- RSP_IIC_WRITE after its TYPE byte (R76). -/
def decodeRspI2cWrite : List Byte → Except DecodeError Instr
  | [code] => .ok (.rspI2cWrite code)
  | _ => .error .wrongBodyLength

/-- RSP_ERROR after its TYPE byte (R76, R79). -/
def decodeRspError : List Byte → Except DecodeError Instr
  | [code] => .ok (.rspError code)
  | _ => .error .wrongBodyLength

/-- A response body, selected by its TYPE byte (R74, R76). -/
def decodeRspBody (c : Config) : List Byte → Except DecodeError Instr
  | [] => .error .empty
  | t :: rest =>
    if t = c.responseType .read then decodeRspRead rest
    else if t = c.responseType .write then decodeRspWrite rest
    else if t = c.responseType .toggle then decodeRspToggle rest
    else if t = c.responseType .i2cWrite then decodeRspI2cWrite rest
    else if t = c.typeError then decodeRspError rest
    else .error (.unassignedType t)

/-! ### Frames -/

/-- The last three bytes of a frame after `n` body bytes (R70). -/
def decodeFrameTail (sender receiver : Byte) (n : Nat) (rest : List Byte) : Except DecodeError Instr :=
  match rest.drop n with
  | [chkHi, chkLo, endByte] => .ok (.sdspFrame sender receiver (rest.take n) (joinBytes chkHi chkLo) endByte)
  | _ => .error .wrongFrameLength

/-- A frame, its length found as R73 says: P_START, four more bytes whose last two give n, then n + 3 more. -/
def decodeFrame (c : Config) : List Byte → Except DecodeError Instr
  | [] => .error .empty
  | start :: rest =>
    if start = c.pStart then
      match rest with
      | sender :: receiver :: lenHi :: lenLo :: more =>
        decodeFrameTail sender receiver (joinBytes lenHi lenLo).toNat more
      | _ => .error .wrongFrameLength
    else .error (.notStart start)

/-- The decoder: total, by the place where the bytes are presented. -/
def decode (c : Config) (iss : Issue) : Except DecodeError Instr :=
  match iss.port with
  | .op => decodeOp iss.bytes
  | .reqBody => decodeReqBody c iss.bytes
  | .rspBody => decodeRspBody c iss.bytes
  | .frame => decodeFrame c iss.bytes

/-! ### The encoder -/

/-- The bytes of an instruction, from the same tables of 30_encoding.md. KIND bits that are ignored are 0
(notes/assumptions/24.md). -/
def encode (c : Config) : Instr → Issue
  | .crcClear => ⟨.op, [opByte 0 0]⟩
  | .crcUpdate b => ⟨.op, [opByte 1 0, b]⟩
  | .crcRead => ⟨.op, [opByte 2 0]⟩
  | .frameEnc sender receiver body => ⟨.op, opByte 3 0 :: sender :: receiver :: body⟩
  | .frameDec ownId => ⟨.op, [opByte 4 0, ownId]⟩
  | .cmdEncRead pin pullup pulldown analog invert direct =>
    ⟨.op, [opByte 5 0, pin, boolByte pullup, boolByte pulldown, boolByte analog, boolByte invert, boolByte direct]⟩
  | .cmdEncWrite pin value analog invert =>
    ⟨.op, [opByte 5 1, pin, hiByte value, loByte value, boolByte analog, boolByte invert]⟩
  | .cmdEncToggle pin => ⟨.op, [opByte 5 2, pin]⟩
  | .cmdEncI2cWrite address data stop => ⟨.op, opByte 5 3 :: address :: boolByte stop :: data⟩
  | .rspDecRead body => ⟨.op, opByte 6 0 :: body⟩
  | .rspDecWrite body => ⟨.op, opByte 6 1 :: body⟩
  | .rspDecToggle body => ⟨.op, opByte 6 2 :: body⟩
  | .rspDecI2cWrite body => ⟨.op, opByte 6 3 :: body⟩
  | .reservedOpc7 => ⟨.op, [opByte 7 0]⟩
  | .reservedOpcHigh low => ⟨.op, [opByte (8 + low.toNat) 0]⟩
  | .reqRead pin pullup pulldown analog invert direct =>
    ⟨.reqBody, readBody c pin pullup pulldown analog invert direct⟩
  | .reqWrite pin value analog invert => ⟨.reqBody, writeBody c pin value analog invert⟩
  | .reqToggle pin => ⟨.reqBody, toggleBody c pin⟩
  | .reqI2cWrite address data stop => ⟨.reqBody, i2cBody c address data stop⟩
  | .rspRead value => ⟨.rspBody, [c.responseType .read, hiByte value, loByte value]⟩
  | .rspWrite => ⟨.rspBody, [c.responseType .write]⟩
  | .rspToggle newValue => ⟨.rspBody, [c.responseType .toggle, newValue]⟩
  | .rspI2cWrite code => ⟨.rspBody, [c.responseType .i2cWrite, code]⟩
  | .rspError code => ⟨.rspBody, [c.typeError, code]⟩
  | .sdspFrame sender receiver body checksum endByte =>
    ⟨.frame, frameLayout c sender receiver body checksum endByte⟩

/-! ### Words of spec/opcode_table.json

The table numbers a row's bits from its first byte; its words are read under the reference configuration (R88).
One byte value can belong to rows of several formats, so a word alone does not name its format
(notes/assumptions/6.md). -/

/-- An operation row's own word: six bits, with KIND zero where the row's mask ignores it (R88). -/
def isOperationWord (b : Byte) : Bool :=
  decide (b.toNat < 64) && (opcOf b == 5 || opcOf b == 6 || opcOf b ≥ 8 || kindOf b == 0)

/-- The format a table word is read in: an operation's own word, else a request TYPE, else a response TYPE, else
P_START, else an operation. A word of fewer than eight bits is an operation. -/
def tablePort (nbits : Nat) (b : Byte) : Port :=
  if nbits < 8 || isOperationWord b then .op
  else if Config.reference.requestTypes.contains b then .reqBody
  else if Config.reference.responseTypes.contains b then .rspBody
  else if b = Config.reference.pStart then .frame
  else .op

/-- How many bytes an operation has when its variable operand is empty (R86). -/
def operationLength (b : Byte) : Nat :=
  match opcOf b with
  | 1 => 2
  | 3 => 3
  | 4 => 2
  | 5 => match kindOf b with
    | 0 => 7
    | 1 => 6
    | 2 => 2
    | _ => 3
  | _ => 1

/-- How many bytes a request body has when its data is empty (R75). -/
def requestLength (b : Byte) : Nat :=
  if b = Config.reference.typeWrite then 5 else if b = Config.reference.typeToggle then 2 else 3

/-- How many bytes a response body has (R76). -/
def responseBodyLength (b : Byte) : Nat :=
  if b = Config.reference.responseType .read then 3
  else if b = Config.reference.responseType .write then 1
  else 2

/-- How many bytes the shortest form of a table word has. -/
def shortestForm (port : Port) (b : Byte) : Nat :=
  match port with
  | .op => operationLength b
  | .reqBody => requestLength b
  | .rspBody => responseBodyLength b
  | .frame => 8

/-- The bytes of the word `w`, least significant first, `n` of them. -/
def wordBytes (n w : Nat) : List Byte := (List.range n).map (fun k => BitVec.ofNat 8 (w >>> (8 * k)))

/-- A table word as presented bytes: every bit above `nbits` is zero, up to the end of its shortest form. -/
def tableIssue (nbits w : Nat) : Issue :=
  let given := wordBytes ((nbits + 7) / 8) (w % 2 ^ nbits)
  let first := byteAt given 0
  let port := tablePort nbits first
  ⟨port, given ++ List.replicate (shortestForm port first - given.length) 0#8⟩

/-- The instruction the decoder reads from a table word. -/
def decodeTableWord (nbits w : Nat) : Option Instr :=
  match decode Config.reference (tableIssue nbits w) with
  | .ok i => some i
  | .error _ => none

end Sys2Proof
end

