-- ==== Sys2Proof/Machine/Completion.lean ====
section
/-! DEFINITION. What the block answers: packets, responses, statuses and completions (10_state.md R23,
60_exceptions.md R230, R231). -/

namespace Sys2Proof.Machine

/-- A decoded frame (00_scope.md R13; 42_deframer.md R150). -/
structure Packet where
  senderId : Byte
  receiverId : Byte
  body : List Byte
  checksum : Word
deriving DecidableEq, Repr

/-- The I2C results of 44_response_decoder.md R205. -/
inductive I2cResult where
  | success
  | dataTooLong
  | nackOnAddress
  | nackOnData
  | other
  | timeout
  | unknown (code : Byte)
deriving DecidableEq, Repr

/-- A typed response (R201 to R204). -/
inductive Response where
  | read (value : Word)
  | write
  | toggle (newValue : Byte)
  | i2cWrite (result : I2cResult)
deriving DecidableEq, Repr

/-- The error statuses of 60_exceptions.md R231 with the info each carries. -/
inductive Status where
  | timeout
  | malformedFrame (byte : Byte)
  | checksumMismatch (received computed : Word)
  | recipientMismatch (receiver : Byte)
  | responseMismatch (kind : Kind) (length : Nat) (first : Option Byte)
  | invalidPin
  | remoteError (code : Byte)
  /-- Reserved for a model of the surrounding software; the block never raises it (R234). -/
  | clientError (code : Byte)
  | encBodyTooLong (length : Nat)
  | frameBodyTooLong (length : Nat)
  | illegalOp (opc : BitVec 4)
deriving DecidableEq, Repr

/-- The payloads of an `Ok` completion (30_encoding.md R86). -/
inductive Payload where
  | none
  | crc (value : Word)
  | frame (bytes : List Byte)
  | packet (p : Packet)
  | body (bytes : List Byte)
  | response (r : Response)
deriving DecidableEq, Repr

/-- The block's answer to an operation (R230). -/
inductive Completion where
  | ok (payload : Payload)
  | err (status : Status)
deriving DecidableEq, Repr

/-- The numeric status codes of R231. -/
def Completion.code : Completion → Byte
  | .ok _ => 0x00#8
  | .err .timeout => 0x01#8
  | .err (.malformedFrame _) => 0x02#8
  | .err (.checksumMismatch _ _) => 0x03#8
  | .err (.recipientMismatch _) => 0x04#8
  | .err (.responseMismatch _ _ _) => 0x10#8
  | .err .invalidPin => 0x11#8
  | .err (.remoteError _) => 0x12#8
  | .err (.clientError _) => 0x13#8
  | .err (.encBodyTooLong _) => 0x20#8
  | .err (.frameBodyTooLong _) => 0x21#8
  | .err (.illegalOp _) => 0x30#8

end Sys2Proof.Machine
end

