-- ==== Sys2Proof/Machine/State.lean ====
section
/-! DEFINITION. The machine's state (10_state.md), the reasons a step can stop, and the state after reset
(70_reset_and_hazards.md R270). -/

namespace Sys2Proof.Machine

/-- RX_STATE (10_state.md R24): `Idle` and the source's nine states, in the order of R25. -/
inductive RxState where
  | idle
  | awaitStart
  | senderId
  | receiverId
  | lenHi
  | lenLo
  | body
  | checksumHi
  | checksumLo
  | awaitEnd
deriving DecidableEq, Repr

/-- The numbered encoding of R25, 0 to 9. -/
def RxState.number : RxState → Nat
  | .idle => 0
  | .awaitStart => 1
  | .senderId => 2
  | .receiverId => 3
  | .lenHi => 4
  | .lenLo => 5
  | .body => 6
  | .checksumHi => 7
  | .checksumLo => 8
  | .awaitEnd => 9

/-- RX_BODY: (address, byte) pairs, addresses strictly rising, every address below MAX_BODY (20_memory.md R53).
An address that is not listed has no value (10_state.md R30, R36; notes/assumptions/11.md). -/
abbrev Memory := List Host.Cell

/-- One move of an agent (00_scope.md R5, R6). -/
inductive Turn where
  /-- HOST, or RX_SOURCE for a whole frame, presents the head of `issues`. -/
  | issue
  /-- BLOCK consumes one received byte (42_deframer.md R149). -/
  | deframer
  /-- TIMER delivers TIMEOUT (42_deframer.md R152). -/
  | timer
  /-- RX_SOURCE appends bytes to RX_IN (10_state.md R33): `ENV.RX`. -/
  | rxSource (bytes : List Byte)
  /-- TX_SINK removes bytes from TX_OUT (10_state.md R34): `ENV.TX n`. -/
  | txSink (n : Nat)
  /-- The block is reset (70_reset_and_hazards.md R270 to R272). -/
  | reset
deriving DecidableEq, Repr

/-- The architectural state of 10_state.md, the parameters of 00_scope.md R7, and the four fields of the model's
own that hold what the agents outside the block do and have received (INVENTORY.md, State). -/
structure State where
  /-- The parameters (10_state.md R35; notes/assumptions/1.md). -/
  cfg : Config
  /-- CRC_REG, R20. -/
  crcReg : Word
  /-- OP_BUSY, R22. -/
  opBusy : Bool
  /-- RX_STATE, R24. -/
  rxState : RxState
  /-- RX_OWN_ID, R26. -/
  rxOwnId : Byte
  /-- RX_SENDER, R27. -/
  rxSender : Byte
  /-- RX_RECEIVER, R27. -/
  rxReceiver : Byte
  /-- RX_LEN_HI, R28. -/
  rxLenHi : Byte
  /-- RX_LEN, R28. -/
  rxLen : Word
  /-- RX_COUNT, R29. -/
  rxCount : Word
  /-- RX_BODY, R30. -/
  rxBody : Memory
  /-- RX_CHK_HI, R31. -/
  rxChkHi : Byte
  /-- RX_CHK, R31. -/
  rxChk : Word
  /-- RX_IN, R33, head first. -/
  rxIn : List Byte
  /-- TX_OUT, R34, head first. -/
  txOut : List Byte
  /-- The completions HOST has received, oldest first (60_exceptions.md R230; notes/assumptions/8.md). -/
  completions : List Completion
  /-- What waits to be presented, next first (notes/assumptions/7.md). -/
  issues : List Issue
  /-- Which agent moves next, next first (notes/assumptions/7.md). -/
  agenda : List Turn
  /-- The number of the next free values (notes/assumptions/10.md). -/
  freeIndex : Nat
deriving DecidableEq, Repr

/-- Why the machine stops. Neither stop lies on a path from reset (Safety.lean); both are safe: a claim about
such a state stays unprovable. -/
inductive Fault where
  /-- Raised by the AwaitEnd step's MemRead of a RX_BODY cell nothing has written (10_state.md R36 allows it). Safe. -/
  | unwrittenBodyCell (address : Nat)
  /-- Raised by the Body step's MemWrite outside addresses 0 to 65534 (20_memory.md R53: 0xFFFF is never formed). Safe. -/
  | noSuchBodyCell (address : Nat)
deriving DecidableEq, Repr

/-- Why the model gives no next state. -/
inductive Refusal where
  /-- Raised by exec for an instruction that has no meaning yet. Safe. -/
  | notModelled (mnemonic : String)
  /-- Raised by step when the presented bytes are no operation, body or frame. Safe. -/
  | undecodable (e : DecodeError)
  /-- Raised by step: the configuration is not well-formed (00_scope.md R8 asks the model to refuse it). Safe. -/
  | illFormedConfig
deriving DecidableEq, Repr

/-- The machine right after reset under a configuration (70_reset_and_hazards.md R270): CRC_REG = CRC_INIT,
OP_BUSY = 0, RX_STATE = Idle. The RX registers, unspecified there, are zero (notes/assumptions/9.md); the channels,
which reset does not touch, are empty (notes/assumptions/12.md). -/
def State.resetWith (c : Config) : State where
  cfg := c
  crcReg := c.crcInit
  opBusy := false
  rxState := .idle
  rxOwnId := 0#8
  rxSender := 0#8
  rxReceiver := 0#8
  rxLenHi := 0#8
  rxLen := 0#16
  rxCount := 0#16
  rxBody := []
  rxChkHi := 0#8
  rxChk := 0#16
  rxIn := []
  txOut := []
  completions := []
  issues := []
  agenda := []
  freeIndex := 0

/-- The machine right after reset, under the reference configuration (00_scope.md R7). -/
def State.reset : State := State.resetWith Config.reference

end Sys2Proof.Machine
end

