-- ==== Sys2Proof/Machine/Ops.lean ====
section
/-! DEFINITION. The named operations over the state: RX_BODY, the channels, completing an operation, taking an
error, and accepting an operation. -/

namespace Sys2Proof.Machine

/-! ### RX_BODY (10_state.md R30, 20_memory.md R53) -/

/-- `MemRead(a, 1)` (00_scope.md R11): the cell's byte, none where nothing has been written. -/
def memRead : Memory → Nat → Option Byte
  | [], _ => none
  | (k, v) :: rest, a => if a = k then some v else memRead rest a

/-- `MemWrite(a, 1, b)` (R11), keeping the addresses strictly rising. -/
def memWrite : Memory → Nat → Byte → Memory
  | [], a, b => [(a, b)]
  | (k, v) :: rest, a, b =>
    if a < k then (a, b) :: (k, v) :: rest
    else if a = k then (a, b) :: rest
    else (k, v) :: memWrite rest a b

/-- The addresses rise strictly. -/
def memRising : Memory → Bool
  | [] => true
  | (k, _) :: rest => rest.all (fun cell => decide (k < cell.1)) && memRising rest

/-- The canonical form: addresses strictly rising and inside RX_BODY (R53). An unlisted cell has no value, so no
entry can repeat what an unlisted cell reads as. -/
def Memory.wf (m : Memory) : Bool := memRising m && m.all (fun cell => decide (cell.1 < maxBody))

/-- `[MemRead(i, 1) for i in start .. start+n-1]` (42_deframer.md R150), or the first address with no value. -/
def memReadRange (m : Memory) : Nat → Nat → Except Nat (List Byte)
  | _, 0 => .ok []
  | start, n + 1 =>
    match memRead m start with
    | none => .error start
    | some b =>
      match memReadRange m (start + 1) n with
      | .ok bytes => .ok (b :: bytes)
      | .error a => .error a

/-! ### Completions and errors -/

/-- Delivers a completion to HOST (60_exceptions.md R230). -/
def State.deliver (s : State) (c : Completion) : State := { s with completions := s.completions ++ [c] }

/-- `complete Ok(payload)` (00_scope.md R11). -/
def State.complete (s : State) (payload : Payload) : State := s.deliver (.ok payload)

/-- `raise <Status>(info)` (R11), the one way an error is taken (60_exceptions.md R236): the completion is
delivered, nothing is saved, no register records the cause, and there is no handler and no return operation (R237).
What FRAME.DEC's errors change besides is `State.endDecode`. -/
def State.raise (s : State) (status : Status) : State := s.deliver (.err status)

/-- RX_OWN_ID to RX_CHK become unspecified (10_state.md R32, 70_reset_and_hazards.md R270): each register takes a
free value and no cell of RX_BODY has a value (notes/assumptions/10.md, 11.md). -/
def State.unspecifyRx (s : State) : State :=
  { s with
    rxOwnId := Config.freeByte (5 * s.freeIndex)
    rxSender := Config.freeByte (5 * s.freeIndex + 1)
    rxReceiver := Config.freeByte (5 * s.freeIndex + 2)
    rxLenHi := Config.freeByte (5 * s.freeIndex + 3)
    rxChkHi := Config.freeByte (5 * s.freeIndex + 4)
    rxLen := Config.freeWord (3 * s.freeIndex)
    rxCount := Config.freeWord (3 * s.freeIndex + 1)
    rxChk := Config.freeWord (3 * s.freeIndex + 2)
    rxBody := []
    freeIndex := s.freeIndex + 1 }

/-- The end of a FRAME.DEC, with a Packet or with an error: RX_STATE <- Idle and so OP_BUSY <- 0
(10_state.md R22, R32; 60_exceptions.md R236). -/
def State.endDecode (s : State) : State :=
  { s.unspecifyRx with rxState := .idle, opBusy := false }

/-- The issue of a FRAME.DEC (42_deframer.md R140): OP_BUSY becomes 1, no completion yet. -/
def State.beginDecode (s : State) (ownId : Byte) : State :=
  { s with rxOwnId := ownId, rxState := .awaitStart, opBusy := true }

/-- HOST may issue an operation only when OP_BUSY = 0; while OP_BUSY = 1 HOST is held and the block does not
refuse the operation (10_state.md R22): nothing happens to the block. -/
def State.accept (s : State) (effect : State → State) : Host.Outcome State Fault Refusal :=
  if s.opBusy then .next s else .next (effect s)

/-! ### Channels and the outside world -/

/-- `emit(bytes)` (00_scope.md R11, 41_framer.md R121): appended to TX_OUT. -/
def State.emit (s : State) (bytes : List Byte) : State := { s with txOut := s.txOut ++ bytes }

/-- RX_SOURCE appends bytes to RX_IN (10_state.md R33). -/
def State.receive (s : State) (bytes : List Byte) : State := { s with rxIn := s.rxIn ++ bytes }

/-- TX_SINK removes `n` bytes from the head of TX_OUT, all of them where there are fewer
(10_state.md R34; notes/assumptions/15.md). -/
def State.drainTx (s : State) (n : Nat) : State := { s with txOut := s.txOut.drop n }

/-- Reset (70_reset_and_hazards.md R270 to R272): the block's registers take their reset values, an active
FRAME.DEC is abandoned with no completion, and the channels are the transport's, which empties them or does not
(TRANSPORT_FLUSH_ON_RESET, R271). -/
def State.resetBlock (s : State) : State :=
  { s.unspecifyRx with
    crcReg := s.cfg.crcInit
    opBusy := false
    rxState := .idle
    rxIn := if s.cfg.flushOnReset then [] else s.rxIn
    txOut := if s.cfg.flushOnReset then [] else s.txOut }

end Sys2Proof.Machine
end

