-- ==== Sys2Proof/Machine/CommandEncoder.lean ====
section
/-! DEFINITION. The command encoder (43_command_encoder.md): CMD.ENC for the four kinds, and the request bodies
themselves as the rows REQ_READ to REQ_IIC_WRITE of the table (notes/assumptions/5.md). No operand is validated but
the data length of I2CWrite (R186). -/

namespace Sys2Proof.Machine

/-- The command encoder's answer for I2CWrite (R184). -/
def i2cWriteAnswer (cfg : Config) (address : Byte) (data : List Byte) (stop : Bool) : Completion :=
  if data.length > maxI2cData then .err (.encBodyTooLong data.length)
  else .ok (.body (i2cBody cfg address data stop))

/-- CMD.ENC Read (R181). -/
def execCmdEncRead (pin : Byte) (pullup pulldown analog invert direct : Bool) (s : State) :
    Host.Outcome State Fault Refusal :=
  s.accept fun s => s.complete (.body (readBody s.cfg pin pullup pulldown analog invert direct))

/-- CMD.ENC Write (R182). -/
def execCmdEncWrite (pin : Byte) (value : Word) (analog invert : Bool) (s : State) :
    Host.Outcome State Fault Refusal :=
  s.accept fun s => s.complete (.body (writeBody s.cfg pin value analog invert))

/-- CMD.ENC Toggle (R183). -/
def execCmdEncToggle (pin : Byte) (s : State) : Host.Outcome State Fault Refusal :=
  s.accept fun s => s.complete (.body (toggleBody s.cfg pin))

/-- CMD.ENC I2CWrite (R184). -/
def execCmdEncI2cWrite (address : Byte) (data : List Byte) (stop : Bool) (s : State) :
    Host.Outcome State Fault Refusal :=
  s.accept fun s => s.deliver (i2cWriteAnswer s.cfg address data stop)

/-- A Read request body: the command encoder's rule R181 for the fields it holds. -/
def execReqRead (pin : Byte) (pullup pulldown analog invert direct : Bool) (s : State) :
    Host.Outcome State Fault Refusal :=
  s.accept fun s => s.complete (.body (readBody s.cfg pin pullup pulldown analog invert direct))

/-- A Write request body: rule R182 for the fields it holds. -/
def execReqWrite (pin : Byte) (value : Word) (analog invert : Bool) (s : State) :
    Host.Outcome State Fault Refusal :=
  s.accept fun s => s.complete (.body (writeBody s.cfg pin value analog invert))

/-- A Toggle request body: rule R183 for the field it holds. -/
def execReqToggle (pin : Byte) (s : State) : Host.Outcome State Fault Refusal :=
  s.accept fun s => s.complete (.body (toggleBody s.cfg pin))

/-- An I2CWrite request body: rule R184 for the fields it holds. -/
def execReqI2cWrite (address : Byte) (data : List Byte) (stop : Bool) (s : State) :
    Host.Outcome State Fault Refusal :=
  s.accept fun s => s.deliver (i2cWriteAnswer s.cfg address data stop)

end Sys2Proof.Machine
end

