-- ==== Sys2Proof/Machine/Crc.lean ====
section
/-! DEFINITION. The CRC unit (40_crc.md): the CRC function and CRC.CLEAR, CRC.UPDATE, CRC.READ. -/

namespace Sys2Proof.Machine

/-- The shift constant K that CRC_ALGO sets (R100). -/
def crcConst : CrcAlgo → Word
  | .reflected => crcConstReflected
  | .raw => crcConstRaw

/-- One of the eight shifts of R101: `if c[0] = 1 then (c >> 1) XOR K else c >> 1`. -/
def crcShift (k c : Word) : Word := if c.getLsbD 0 then (c >>> 1) ^^^ k else c >>> 1

/-- `n` shifts. -/
def crcShifts (k : Word) : Nat → Word → Word
  | 0, c => c
  | n + 1, c => crcShifts k n (crcShift k c)

/-- `crc_step(c, b)` (R101). -/
def crcStep (cfg : Config) (c : Word) (b : Byte) : Word :=
  crcShifts (crcConst cfg.crcAlgo) 8 (c ^^^ b.setWidth 16)

/-- The CRC of a byte sequence before the final XOR, from a register value (R102's loop). -/
def crcFold (cfg : Config) (c : Word) (bytes : List Byte) : Word := bytes.foldl (crcStep cfg) c

/-- `crc16(s)` (R102). -/
def crc16 (cfg : Config) (bytes : List Byte) : Word := crcFold cfg cfg.crcInit bytes ^^^ cfg.crcXorOut

/-- `frame_crc(sender, receiver, body)` (R106): the CRC of the frame with its two checksum bytes zero. -/
def frameCrc (cfg : Config) (sender receiver : Byte) (body : List Byte) : Word :=
  crc16 cfg (frameLayout cfg sender receiver body 0#16 cfg.pEnd)

/-- CRC.CLEAR (R103). -/
def execCrcClear (s : State) : Host.Outcome State Fault Refusal :=
  s.accept fun s => { s with crcReg := s.cfg.crcInit }.complete .none

/-- CRC.UPDATE b (R104): the completion is the raw register, before CRC_XOROUT. -/
def execCrcUpdate (b : Byte) (s : State) : Host.Outcome State Fault Refusal :=
  s.accept fun s =>
    { s with crcReg := crcStep s.cfg s.crcReg b }.complete (.crc (crcStep s.cfg s.crcReg b))

/-- CRC.READ (R105): CRC_REG does not change. -/
def execCrcRead (s : State) : Host.Outcome State Fault Refusal :=
  s.accept fun s => s.complete (.crc (s.crcReg ^^^ s.cfg.crcXorOut))

end Sys2Proof.Machine
end

