-- ==== Sys2Proof/Machine/Framer.lean ====
section
/-! DEFINITION. The framer (41_framer.md): FRAME.ENC. -/

namespace Sys2Proof.Machine

/-- The frame that FRAME.ENC builds (R120): the layout of 30_encoding.md R70 with its checksum in place. -/
def encodedFrame (cfg : Config) (sender receiver : Byte) (body : List Byte) : List Byte :=
  frameLayout cfg sender receiver body (frameCrc cfg sender receiver body) cfg.pEnd

/-- FRAME.ENC (R120, R121): the frame goes to TX_OUT whole and is returned; a body longer than MAX_BODY is
answered with FRAME_BODY_TOO_LONG and nothing is emitted. -/
def execFrameEnc (sender receiver : Byte) (body : List Byte) (s : State) : Host.Outcome State Fault Refusal :=
  s.accept fun s =>
    if body.length > maxBody then s.raise (.frameBodyTooLong body.length)
    else (s.emit (encodedFrame s.cfg sender receiver body)).complete
      (.frame (encodedFrame s.cfg sender receiver body))

end Sys2Proof.Machine
end

