-- ==== Sys2Proof/Machine/Deframer.lean ====
section
/-! DEFINITION. The deframer (42_deframer.md): the issue of FRAME.DEC, one rule per state for one byte, the
deframer step, TIMEOUT, and the frame that RX_SOURCE delivers. -/

namespace Sys2Proof.Machine

/-- FRAME.DEC (R140): issued, not yet completed. RX_IN is not touched. -/
def execFrameDec (ownId : Byte) (s : State) : Host.Outcome State Fault Refusal :=
  s.accept fun s => s.beginDecode ownId

/-- State AwaitStart (R141): a byte that is not P_START is discarded. -/
def rxAwaitStart (b : Byte) (s : State) : State :=
  if b = s.cfg.pStart then { s with rxState := .senderId } else { s with rxState := .awaitStart }

/-- State SenderId (R142). -/
def rxSenderByte (b : Byte) (s : State) : State := { s with rxSender := b, rxState := .receiverId }

/-- State ReceiverId (R143): the recipient is checked only at the end. -/
def rxReceiverByte (b : Byte) (s : State) : State := { s with rxReceiver := b, rxState := .lenHi }

/-- State LenHi (R144). -/
def rxLenHiByte (b : Byte) (s : State) : State := { s with rxLenHi := b, rxState := .lenLo }

/-- State LenLo (R145): a length of 0 skips Body. -/
def rxLenLoByte (b : Byte) (s : State) : State :=
  { s with
    rxLen := joinBytes s.rxLenHi b
    rxCount := 0#16
    rxState := if joinBytes s.rxLenHi b = 0#16 then .checksumHi else .body }

/-- State Body (R146). The fault is for an address that does not exist (20_memory.md R53), which RX_COUNT < RX_LEN
rules out. -/
def rxBodyByte (b : Byte) (s : State) : Host.Outcome State Fault Refusal :=
  if s.rxCount.toNat < maxBody then
    .next { s with
      rxBody := memWrite s.rxBody s.rxCount.toNat b
      rxCount := s.rxCount + 1#16
      rxState := if s.rxCount + 1#16 = s.rxLen then .checksumHi else .body }
  else .fault (.noSuchBodyCell s.rxCount.toNat)

/-- State ChecksumHi (R147). -/
def rxChecksumHiByte (b : Byte) (s : State) : State := { s with rxChkHi := b, rxState := .checksumLo }

/-- State ChecksumLo (R148). -/
def rxChecksumLoByte (b : Byte) (s : State) : State :=
  { s with rxChk := joinBytes s.rxChkHi b, rxState := .awaitEnd }

/-- The completion of a frame whose END byte and body are at hand, in the order of R150 (60_exceptions.md
R235(a)): END, then the checksum, then the recipient. The comparison is for equality (90_conflicts.md C2). -/
def frameVerdict (cfg : Config) (ownId sender receiver : Byte) (body : List Byte) (checksum : Word)
    (endByte : Byte) : Completion :=
  if endByte ≠ cfg.pEnd then .err (.malformedFrame endByte)
  else if frameCrc cfg sender receiver body ≠ checksum then
    .err (.checksumMismatch checksum (frameCrc cfg sender receiver body))
  else if receiver ≠ ownId ∧ receiver ≠ broadcastId then .err (.recipientMismatch receiver)
  else .ok (.packet ⟨sender, receiver, body, checksum⟩)

/-- State AwaitEnd (R150). RX_BODY is read only after the END byte has been checked. -/
def rxAwaitEnd (b : Byte) (s : State) : Host.Outcome State Fault Refusal :=
  if b ≠ s.cfg.pEnd then .next (s.endDecode.raise (.malformedFrame b))
  else
    match memReadRange s.rxBody 0 s.rxLen.toNat with
    | .error a => .fault (.unwrittenBodyCell a)
    | .ok body =>
      .next (s.endDecode.deliver (frameVerdict s.cfg s.rxOwnId s.rxSender s.rxReceiver body s.rxChk b))

/-- The rule of the current RX_STATE for one byte (R149). In Idle no byte is taken. -/
def deframeByte (b : Byte) (s : State) : Host.Outcome State Fault Refusal :=
  match s.rxState with
  | .idle => .next s
  | .awaitStart => .next (rxAwaitStart b s)
  | .senderId => .next (rxSenderByte b s)
  | .receiverId => .next (rxReceiverByte b s)
  | .lenHi => .next (rxLenHiByte b s)
  | .lenLo => .next (rxLenLoByte b s)
  | .body => rxBodyByte b s
  | .checksumHi => .next (rxChecksumHiByte b s)
  | .checksumLo => .next (rxChecksumLoByte b s)
  | .awaitEnd => rxAwaitEnd b s

/-- The deframer step (R149): enabled exactly when RX_STATE ≠ Idle and RX_IN is not empty; it takes the head byte
(20_memory.md R56). Otherwise there is no step and nothing changes. -/
def deframeStep (s : State) : Host.Outcome State Fault Refusal :=
  if s.rxState = .idle then .next s
  else
    match s.rxIn with
    | [] => .next s
    | b :: rest => deframeByte b { s with rxIn := rest }

/-- TIMEOUT (R152): while RX_STATE = Idle it is not delivered and has no effect. -/
def timeoutEvent (s : State) : State :=
  if s.rxState = .idle then s else s.endDecode.raise .timeout

/-- A frame on the wire: RX_SOURCE appends it to RX_IN, whose bytes the deframer takes in steps of its own
(10_state.md R33, 60_exceptions.md R241; notes/assumptions/5.md). -/
def execSdspFrame (sender receiver : Byte) (body : List Byte) (checksum : Word) (endByte : Byte) (s : State) :
    Host.Outcome State Fault Refusal :=
  .next (s.receive (frameLayout s.cfg sender receiver body checksum endByte))

end Sys2Proof.Machine
end

