-- ==== Sys2Proof/Machine/Reserved.lean ====
section
/-! DEFINITION. The reserved operation codes (60_exceptions.md R233): ILLEGAL_OP in the issue step, no register, no
channel and OP_BUSY unchanged. -/

namespace Sys2Proof.Machine

/-- OPC 0x7 (R233). -/
def execReservedOpc7 (s : State) : Host.Outcome State Fault Refusal :=
  s.accept fun s => s.raise (.illegalOp 7#4)

/-- OPC 0x8 to 0xF (R233). -/
def execReservedOpcHigh (low : BitVec 3) (s : State) : Host.Outcome State Fault Refusal :=
  s.accept fun s => s.raise (.illegalOp (1#1 ++ low))

end Sys2Proof.Machine
end

