-- ==== Sys2Proof/Machine/ResponseDecoder.lean ====
section
/-! DEFINITION. The response decoder and validator (44_response_decoder.md): RSP.DEC for the four kinds, and the
response bodies themselves as the rows RSP_READ to RSP_ERROR of the table (notes/assumptions/5.md). -/

namespace Sys2Proof.Machine

/-- The I2C result of a code (R205). -/
def i2cResult (cfg : Config) (code : Byte) : I2cResult :=
  if code = cfg.i2cSuccess then .success
  else if code = cfg.i2cDataTooLong then .dataTooLong
  else if code = nackOnAddressCode then .nackOnAddress
  else if code = cfg.i2cNackOnData then .nackOnData
  else if code = cfg.i2cOther then .other
  else if code = cfg.i2cTimeout then .timeout
  else .unknown code

/-- `decode_<kind>(body)` (R201 to R204), for a body of the kind's shape. -/
def decodeResponse (cfg : Config) (kind : Kind) (body : List Byte) : Response :=
  match kind with
  | .read => .read (joinBytes (byteAt body 1) (byteAt body 2))
  | .write => .write
  | .toggle => .toggle (byteAt body 1)
  | .i2cWrite => .i2cWrite (i2cResult cfg (byteAt body 1))

/-- The error of an Error body (R206). -/
def errorResponse (code : Byte) : Status :=
  if code = invalidPinCode then .invalidPin else .remoteError code

/-- A body matches a shape (T, L) when its length is L and its first byte is T (R200). -/
def matchesShape (body : List Byte) (typeByte : Byte) (length : Nat) : Bool :=
  decide (body.length = length) && decide (body.head? = some typeByte)

/-- RSP.DEC's three tiers in their order (R200, 60_exceptions.md R235(c)): the expected shape, the Error shape,
RESPONSE_MISMATCH. -/
def decodeAnswer (cfg : Config) (kind : Kind) (body : List Byte) : Completion :=
  if matchesShape body (cfg.responseType kind) (responseLength kind) then
    .ok (.response (decodeResponse cfg kind body))
  else if matchesShape body cfg.typeError 2 then .err (errorResponse (byteAt body 1))
  else .err (.responseMismatch kind body.length body.head?)

/-- RSP.DEC of one kind (R200): a pure function of the body, delivered. -/
def responseDecode (kind : Kind) (body : List Byte) (s : State) : Host.Outcome State Fault Refusal :=
  s.accept fun s => s.deliver (decodeAnswer s.cfg kind body)

/-- RSP.DEC Read (R200, R201). -/
def execRspDecRead (body : List Byte) (s : State) : Host.Outcome State Fault Refusal :=
  responseDecode .read body s

/-- RSP.DEC Write (R200, R202). -/
def execRspDecWrite (body : List Byte) (s : State) : Host.Outcome State Fault Refusal :=
  responseDecode .write body s

/-- RSP.DEC Toggle (R200, R203). -/
def execRspDecToggle (body : List Byte) (s : State) : Host.Outcome State Fault Refusal :=
  responseDecode .toggle body s

/-- RSP.DEC I2CWrite (R200, R204). -/
def execRspDecI2cWrite (body : List Byte) (s : State) : Host.Outcome State Fault Refusal :=
  responseDecode .i2cWrite body s

/-- A Read response body (R201), where a Read response is expected. -/
def execRspRead (value : Word) (s : State) : Host.Outcome State Fault Refusal :=
  responseDecode .read [s.cfg.responseType .read, hiByte value, loByte value] s

/-- A Write response body (R202), where a Write response is expected. -/
def execRspWrite (s : State) : Host.Outcome State Fault Refusal :=
  responseDecode .write [s.cfg.responseType .write] s

/-- A Toggle response body (R203), where a Toggle response is expected. -/
def execRspToggle (newValue : Byte) (s : State) : Host.Outcome State Fault Refusal :=
  responseDecode .toggle [s.cfg.responseType .toggle, newValue] s

/-- An I2CWrite response body (R204), where an I2CWrite response is expected. -/
def execRspI2cWrite (resultCode : Byte) (s : State) : Host.Outcome State Fault Refusal :=
  responseDecode .i2cWrite [s.cfg.responseType .i2cWrite, resultCode] s

/-- An Error response body (R206), recognised for every expected kind. -/
def execRspError (errorCode : Byte) (s : State) : Host.Outcome State Fault Refusal :=
  s.accept fun s => s.raise (errorResponse errorCode)

end Sys2Proof.Machine
end

