-- ==== Sys2Proof/Machine/Dispatch.lean ====
section
/-! DEFINITION. One meaning per instruction. -/

namespace Sys2Proof.Machine

def exec (i : Instr) (s : State) : Host.Outcome State Fault Refusal :=
  match i with
  | .crcClear => Sys2Proof.Machine.execCrcClear s
  | .crcUpdate b => Sys2Proof.Machine.execCrcUpdate b s
  | .crcRead => Sys2Proof.Machine.execCrcRead s
  | .frameEnc sender receiver body => Sys2Proof.Machine.execFrameEnc sender receiver body s
  | .frameDec ownId => Sys2Proof.Machine.execFrameDec ownId s
  | .cmdEncRead pin pullup pulldown analog invert direct => Sys2Proof.Machine.execCmdEncRead pin pullup pulldown analog invert direct s
  | .cmdEncWrite pin value analog invert => Sys2Proof.Machine.execCmdEncWrite pin value analog invert s
  | .cmdEncToggle pin => Sys2Proof.Machine.execCmdEncToggle pin s
  | .cmdEncI2cWrite address data stop => Sys2Proof.Machine.execCmdEncI2cWrite address data stop s
  | .rspDecRead body => Sys2Proof.Machine.execRspDecRead body s
  | .rspDecWrite body => Sys2Proof.Machine.execRspDecWrite body s
  | .rspDecToggle body => Sys2Proof.Machine.execRspDecToggle body s
  | .rspDecI2cWrite body => Sys2Proof.Machine.execRspDecI2cWrite body s
  | .reservedOpc7 => Sys2Proof.Machine.execReservedOpc7 s
  | .reservedOpcHigh low => Sys2Proof.Machine.execReservedOpcHigh low s
  | .reqRead pin pullup pulldown analog invert direct => Sys2Proof.Machine.execReqRead pin pullup pulldown analog invert direct s
  | .reqWrite pin value analog invert => Sys2Proof.Machine.execReqWrite pin value analog invert s
  | .reqToggle pin => Sys2Proof.Machine.execReqToggle pin s
  | .reqI2cWrite address data stop => Sys2Proof.Machine.execReqI2cWrite address data stop s
  | .rspRead value => Sys2Proof.Machine.execRspRead value s
  | .rspWrite => Sys2Proof.Machine.execRspWrite s
  | .rspToggle newValue => Sys2Proof.Machine.execRspToggle newValue s
  | .rspI2cWrite resultCode => Sys2Proof.Machine.execRspI2cWrite resultCode s
  | .rspError errorCode => Sys2Proof.Machine.execRspError errorCode s
  | .sdspFrame sender receiver body checksum endByte => Sys2Proof.Machine.execSdspFrame sender receiver body checksum endByte s

end Sys2Proof.Machine
end

