-- ==== Sys2Proof/Machine/Schedule.lean ====
section
/-! DEFINITION. One move of one agent (00_scope.md R5, R6): presenting an instruction, the deframer step, TIMEOUT,
the channels' other ends, reset; and which move is next (notes/assumptions/7.md). -/

namespace Sys2Proof.Machine

/-- HOST is held (10_state.md R22): OP_BUSY = 1 and what waits is HOST's. A frame on the wire is RX_SOURCE's, which
may append at any step (R33). -/
def held (s : State) (iss : Issue) : Bool := s.opBusy && decide (iss.port ≠ .frame)

/-- Presents the head of `issues`: held while the block is busy, else decoded and run. -/
def presentHead (s : State) : Host.Outcome State Fault Refusal :=
  match s.issues with
  | [] => .next s
  | iss :: rest =>
    if held s iss then .next s
    else
      match decode s.cfg iss with
      | .error e => .refused (.undecodable e)
      | .ok i => exec i { s with issues := rest }

/-- One move. A move that is not enabled changes nothing: TIMEOUT in Idle (42_deframer.md R152), a deframer step
with no byte (R149), an operation that is held (10_state.md R22). -/
def runTurn (turn : Turn) (s : State) : Host.Outcome State Fault Refusal :=
  match turn with
  | .issue => presentHead s
  | .deframer => deframeStep s
  | .timer => .next (timeoutEvent s)
  | .rxSource bytes => .next (s.receive bytes)
  | .txSink n => .next (s.drainTx n)
  | .reset => .next s.resetBlock

/-- The move of an empty agenda: what waits and is not held is presented, else the deframer steps. -/
def defaultTurn (s : State) : Turn :=
  match s.issues with
  | [] => .deframer
  | iss :: _ => if held s iss then .deframer else .issue

/-- The next move: the agenda's head, else the default one. -/
def advance (s : State) : Host.Outcome State Fault Refusal :=
  match s.agenda with
  | turn :: rest => runTurn turn { s with agenda := rest }
  | [] => runTurn (defaultTurn s) s

end Sys2Proof.Machine
end

