-- ==== Sys2Proof/Machine/Step.lean ====
section
/-! DEFINITION. The step function: a configuration that is not well-formed is refused (00_scope.md R8); otherwise
one agent makes one move. -/

namespace Sys2Proof.Machine

def step (s : State) : Host.Outcome State Fault Refusal :=
  if s.cfg.wf then advance s else .refused .illFormedConfig

/-- The word of an opcode-table row, presented next. -/
def State.withFetchWord (s : State) (nbits w : Nat) : State :=
  { s with issues := tableIssue nbits w :: s.issues, agenda := .issue :: s.agenda }

end Sys2Proof.Machine
end

