-- ==== Sys2Proof/Machine/Dispatcher.lean ====
section
/-! DEFINITION. HOST's retrying dispatcher (60_exceptions.md R232, R242 to R245, R251) as functions over the block's
operations. It is outside the block (00_scope.md R4) and no step of the machine calls it
(notes/assumptions/18.md). -/

namespace Sys2Proof.Machine

/-- A typed command (00_scope.md R12; 43_command_encoder.md R180). -/
inductive Command where
  | read (pin : Byte) (pullup pulldown analog invert direct : Bool)
  | write (pin : Byte) (value : Word) (analog invert : Bool)
  | toggle (pin : Byte)
  | i2cWrite (address : Byte) (data : List Byte) (stop : Bool)
deriving DecidableEq, Repr

/-- The CMD.ENC operation of a command (R180). -/
def Command.encodeOp : Command → Instr
  | .read pin pullup pulldown analog invert direct => .cmdEncRead pin pullup pulldown analog invert direct
  | .write pin value analog invert => .cmdEncWrite pin value analog invert
  | .toggle pin => .cmdEncToggle pin
  | .i2cWrite address data stop => .cmdEncI2cWrite address data stop

/-- The RSP.DEC operation that expects a command's response (R243: `RSP.DEC kind(command)`). -/
def Command.decodeOp (cmd : Command) (body : List Byte) : Instr :=
  match cmd with
  | .read _ _ _ _ _ _ => .rspDecRead body
  | .write _ _ _ _ => .rspDecWrite body
  | .toggle _ => .rspDecToggle body
  | .i2cWrite _ _ _ => .rspDecI2cWrite body

/-- The reasons of CodecError (R231, R232; IoError of R251). -/
inductive CodecReason where
  | timeout
  | malformedFrame
  | checksumMismatch
  | recipientMismatch
  | bodyTooLong
  | ioError
deriving DecidableEq, Repr

/-- The source's ErrorKind (R232). -/
inductive ErrorKind where
  | codecError (reason : CodecReason)
  | remoteError (code : Byte)
  | clientError (code : Byte)
  | invalidPin
  | responseMismatch
deriving DecidableEq, Repr

/-- Why an attempt fails: a status of the block, or the transport's IOError on the write (R251). -/
inductive Failure where
  | status (e : Status)
  | ioError
deriving DecidableEq, Repr

/-- The ErrorKind of a failure (R231's last column, R232, R251); ILLEGAL_OP has none, it is a HOST defect. -/
def Failure.errorKind : Failure → Option ErrorKind
  | .status .timeout => some (.codecError .timeout)
  | .status (.malformedFrame _) => some (.codecError .malformedFrame)
  | .status (.checksumMismatch _ _) => some (.codecError .checksumMismatch)
  | .status (.recipientMismatch _) => some (.codecError .recipientMismatch)
  | .status (.responseMismatch _ _ _) => some .responseMismatch
  | .status .invalidPin => some .invalidPin
  | .status (.remoteError code) => some (.remoteError code)
  | .status (.clientError code) => some (.clientError code)
  | .status (.encBodyTooLong _) => some (.codecError .bodyTooLong)
  | .status (.frameBodyTooLong _) => some (.codecError .bodyTooLong)
  | .status (.illegalOp _) => none
  | .ioError => some (.codecError .ioError)

/-- INVALID_PIN is terminal; every other failure is possibly transient (R244). -/
def Failure.terminal : Failure → Bool
  | .status .invalidPin => true
  | _ => false

/-- The dispatcher's configuration (R242) with its defaults; `own_id` has none (70_reset_and_hazards.md R273). -/
structure DispatcherConfig where
  ownId : Byte
  readTimeoutMs : Nat := 100
  maxRetries : Nat := 2
  backoffMs : Nat := 100
deriving DecidableEq, Repr

/-- What one attempt gives (R243). -/
inductive AttemptOutcome where
  | response (r : Response)
  | failed (f : Failure)
deriving DecidableEq, Repr

/-- What `send` gives, with the attempts made and the backoffs waited. -/
structure SendResult where
  outcome : AttemptOutcome
  attempts : Nat
  backoffs : Nat
deriving DecidableEq, Repr

/-- The loop of R243 and R244 from attempt `k` on, with `retries` attempts left after it: success and INVALID_PIN
end it at once; any other failure is retried after a backoff, and the last error is returned. -/
def sendLoop (attempt : Nat → AttemptOutcome) : Nat → Nat → SendResult
  | 0, k => ⟨attempt k, 1, 0⟩
  | retries + 1, k =>
    match attempt k with
    | .response r => ⟨.response r, 1, 0⟩
    | .failed f =>
      if f.terminal then ⟨.failed f, 1, 0⟩
      else
        let rest := sendLoop attempt retries (k + 1)
        ⟨rest.outcome, rest.attempts + 1, rest.backoffs + 1⟩

/-- `send` over the outcomes of its attempts, the first being attempt 0 (R243, R244). -/
def send (dc : DispatcherConfig) (attempt : Nat → AttemptOutcome) : SendResult := sendLoop attempt dc.maxRetries 0

/-! ### One attempt as operations of the block (R243) -/

/-- Runs one operation and reads the completion it delivers. -/
def runOperation (i : Instr) (s : State) : Option (Completion × State) :=
  match exec i s with
  | .next t => if t.completions.length = s.completions.length + 1 then
      t.completions.getLast?.map fun c => (c, t) else none
  | .fault _ => none
  | .refused _ => none

/-- At most `fuel` deframer steps, stopping when the decode has completed. -/
def runDeframer : Nat → State → Option State
  | 0, s => some s
  | fuel + 1, s =>
    if s.rxState = .idle then some s
    else
      match deframeStep s with
      | .next t => runDeframer fuel t
      | .fault _ => none
      | .refused _ => none

/-- FRAME.DEC in one attempt: the reply arrives, the deframer takes all there is, and TIMEOUT ends a decode that has
not completed (R240). -/
def runDecode (ownId : Byte) (reply : List Byte) (s : State) : Option (Completion × State) :=
  match exec (.frameDec ownId) s with
  | .next t =>
    match runDeframer (t.rxIn ++ reply).length (t.receive reply) with
    | some u => (timeoutEvent u).completions.getLast?.map fun c => (c, timeoutEvent u)
    | none => none
  | .fault _ => none
  | .refused _ => none

/-- RSP.DEC's answer as the outcome of an attempt (R243); RSP.DEC completes with no other payload. -/
def responseOutcome : Completion → Option AttemptOutcome
  | .ok (.response r) => some (.response r)
  | .err e => some (.failed (.status e))
  | .ok _ => none

/-- One attempt (R243): CMD.ENC, FRAME.ENC, FRAME.DEC, RSP.DEC; the first error ends it. None where the block was busy
or gave no completion. -/
def attempt (ownId recipient : Byte) (cmd : Command) (reply : List Byte) (s : State) :
    Option (AttemptOutcome × State) :=
  match runOperation cmd.encodeOp s with
  | some (.ok (.body body), s1) =>
    match runOperation (.frameEnc ownId recipient body) s1 with
    | some (.ok _, s2) =>
      match runDecode ownId reply s2 with
      | some (.ok (.packet p), s3) =>
        match runOperation (cmd.decodeOp p.body) s3 with
        | some (c, s4) => (responseOutcome c).map fun outcome => (outcome, s4)
        | none => none
      | some (.err e, s3) => some (.failed (.status e), s3)
      | _ => none
    | some (.err e, s2) => some (.failed (.status e), s2)
    | none => none
  | some (.err e, s1) => some (.failed (.status e), s1)
  | _ => none

end Sys2Proof.Machine
end

