-- ==== Sys2Proof/Safety.lean ====
section
/-! DEFINITION. What a good state is, runs of the machine, and the words claims use for frames on the wire. -/

namespace Sys2Proof.Machine

/-- How many cells of RX_BODY the current frame has written (10_state.md R29, R30). -/
def State.cellsWritten (s : State) : Nat :=
  match s.rxState with
  | .idle => 0
  | .awaitStart => 0
  | .senderId => 0
  | .receiverId => 0
  | .lenHi => 0
  | .lenLo => 0
  | .body => s.rxCount.toNat
  | .checksumHi => s.rxLen.toNat
  | .checksumLo => s.rxLen.toNat
  | .awaitEnd => s.rxLen.toNat

/-- LEN has been received and the frame has not ended. -/
def RxState.afterLen : RxState → Bool
  | .idle => false
  | .awaitStart => false
  | .senderId => false
  | .receiverId => false
  | .lenHi => false
  | .lenLo => false
  | .body => true
  | .checksumHi => true
  | .checksumLo => true
  | .awaitEnd => true

/-- The invariant of the block. -/
structure State.Inv (s : State) : Prop where
  /-- The configuration is well-formed (00_scope.md R8). -/
  config : s.cfg.wf = true
  /-- OP_BUSY is true exactly when RX_STATE ≠ Idle (10_state.md R22). -/
  busy : s.opBusy = decide (s.rxState ≠ .idle)
  /-- RX_BODY holds exactly the body bytes received so far (R30). -/
  cells : s.rxBody.map Prod.fst = List.range s.cellsWritten
  /-- In Body, RX_COUNT < RX_LEN (R29, 42_deframer.md R146). -/
  counting : s.rxState = .body → s.rxCount.toNat < s.rxLen.toNat
  /-- After Body, RX_COUNT = RX_LEN (R29). -/
  counted : s.rxState.afterLen = true → s.rxState ≠ .body → s.rxCount = s.rxLen
  /-- RX_LEN = RX_LEN_HI << 8 | LEN_LO (R28). -/
  lenHi : s.rxState.afterLen = true → hiByte s.rxLen = s.rxLenHi
  /-- RX_CHK = RX_CHK_HI << 8 | CHK_LO (R31). -/
  chkHi : s.rxState = .awaitEnd → hiByte s.rxChk = s.rxChkHi

/-- `n` steps of the machine, stopping at the first fault or refusal. -/
def run : Nat → State → Host.Outcome State Fault Refusal
  | 0, s => .next s
  | n + 1, s =>
    match step s with
    | .next t => run n t
    | .fault f => .fault f
    | .refused r => .refused r

/-- Operations one after another, each issued when the one before has completed (20_memory.md R59). -/
def execAll : List Instr → State → Host.Outcome State Fault Refusal
  | [], s => .next s
  | i :: is, s =>
    match exec i s with
    | .next t => execAll is t
    | .fault f => .fault f
    | .refused r => .refused r

/-- The RSP.DEC operation of a kind (44_response_decoder.md R200). -/
def rspDecOf : Kind → List Byte → Instr
  | .read => .rspDecRead
  | .write => .rspDecWrite
  | .toggle => .rspDecToggle
  | .i2cWrite => .rspDecI2cWrite

/-- HOST's operations: every instruction but a frame on the wire, which is RX_SOURCE's (10_state.md R22, R33). -/
def fromHost (i : Instr) : Bool := decide ((encode Config.reference i).port ≠ .frame)

/-- A request body with the flag bits that no field owns written as 0 (30_encoding.md R80, R83(d)): the flags byte stands
at offset 2 of a Read and an I2CWrite body and at offset 4 of a Write body (R75). -/
def clearUnassigned (c : Config) (body : List Byte) : List Byte :=
  if body.head? = some c.typeRead then body.set 2 (byteAt body 2 &&& readFlags c true true true true true)
  else if body.head? = some c.typeWrite then body.set 4 (byteAt body 4 &&& writeFlags c true true)
  else if body.head? = some c.typeI2cWrite then body.set 2 (byteAt body 2 &&& i2cFlags c true)
  else body

/-- One bit of one byte flipped (42_deframer.md R157). -/
def flipBit (bytes : List Byte) (offset bit : Nat) : List Byte :=
  bytes.set offset (byteAt bytes offset ^^^ (1#8 <<< bit))

/-- The checksum of raw frame bytes (40_crc.md R106, R108): the CRC with the two bytes before END, offsets 5+n and
6+n of the 8+n, as zero. -/
def crcOfFrameBytes (cfg : Config) (frame : List Byte) : Word :=
  crc16 cfg ((frame.set (frame.length - 3) 0#8).set (frame.length - 2) 0#8)

end Sys2Proof.Machine
end

