-- ==== Sys2Proof/Certificates/Slice0/Obligations.lean ====
section
/-! DEFINITION. The statements for the provers. Each follows a numbered rule of spec/ or says that it rests on a choice
of the model. A conclusion `exec i s = .next { s with … }` says the result, that the instruction completes and its
whole frame: every field of the state that is not named is unchanged. -/

open Sys2Proof Sys2Proof.Machine

/-! ### CRC unit -/

/-- 40_crc.md R103. -/
def Obligations.CrcClearLoadsCrcInit : Prop :=
  ∀ s : State, s.opBusy = false →
    exec .crcClear s = .next { s with crcReg := s.cfg.crcInit, completions := s.completions ++ [.ok .none] }

/-- 40_crc.md R104, with its corner cases and its example. -/
def Obligations.CrcUpdateFoldsOneByte : Prop :=
  (∀ (s : State) (b : Byte), s.opBusy = false →
    exec (.crcUpdate b) s = .next { s with
      crcReg := crcStep s.cfg s.crcReg b
      completions := s.completions ++ [.ok (.crc (crcStep s.cfg s.crcReg b))] }) ∧
  (∀ cfg : Config, crcStep cfg 0x0000#16 0x00#8 = 0x0000#16) ∧
  (∀ cfg : Config, cfg.crcAlgo = .reflected → crcStep cfg 0x0000#16 0x80#8 = 0x8408#16) ∧
  (∀ cfg : Config, cfg.crcAlgo = .raw → crcStep cfg 0x0000#16 0x80#8 = 0x1021#16) ∧
  crcStep Config.reference 0x0000#16 0x01#8 = 0x1189#16

/-- 40_crc.md R105: the finished CRC, and CRC_REG unchanged; its example is the value of the nine bytes. -/
def Obligations.CrcReadReturnsFinishedCrc : Prop :=
  (∀ s : State, s.opBusy = false →
    exec .crcRead s = .next { s with completions := s.completions ++ [.ok (.crc (s.crcReg ^^^ s.cfg.crcXorOut))] }) ∧
  (∀ s : State, s.opBusy = false → s.cfg = Config.reference →
    ∃ t, execAll (.crcClear :: ([0x31#8, 0x32#8, 0x33#8, 0x34#8, 0x35#8, 0x36#8, 0x37#8, 0x38#8, 0x39#8].map
        Instr.crcUpdate) ++ [.crcRead]) s = .next t ∧
      t.completions.getLast? = some (.ok (.crc 0x2189#16)))

/-- 40_crc.md R100, R101, R102: the shift constants, the eight conditional shifts, the loop over the bytes, the check
value and the empty sequence. -/
def Obligations.CrcIsTheSpecifiedLoop : Prop :=
  (∀ (cfg : Config) (c : Word) (b : Byte),
    crcStep cfg c b =
      (fun x : Word => if x.getLsbD 0 then (x >>> 1) ^^^ (match cfg.crcAlgo with
        | .reflected => 0x8408#16
        | .raw => 0x1021#16) else x >>> 1)^[8] (c ^^^ b.setWidth 16)) ∧
  (∀ (cfg : Config) (bytes : List Byte),
    crc16 cfg bytes = bytes.foldl (crcStep cfg) cfg.crcInit ^^^ cfg.crcXorOut) ∧
  (∀ cfg : Config, crc16 cfg [] = cfg.crcInit ^^^ cfg.crcXorOut) ∧
  crc16 Config.reference [0x31#8, 0x32#8, 0x33#8, 0x34#8, 0x35#8, 0x36#8, 0x37#8, 0x38#8, 0x39#8] = 0x2189#16

/-- 40_crc.md R102, R104, R105 together: CRC.CLEAR, CRC.UPDATE of each byte, CRC.READ compute `crc16` of any byte
sequence, deliver one completion each, and touch nothing but CRC_REG. -/
def Obligations.CrcOperationsComputeCrc16 : Prop :=
  ∀ (s : State) (bytes : List Byte), s.opBusy = false →
    ∃ t, execAll (.crcClear :: bytes.map Instr.crcUpdate ++ [.crcRead]) s = .next t ∧
      t = { s with crcReg := t.crcReg, completions := t.completions } ∧
      t.crcReg = crcFold s.cfg s.cfg.crcInit bytes ∧
      t.completions.length = s.completions.length + bytes.length + 2 ∧
      t.completions.take s.completions.length = s.completions ∧
      t.completions.getLast? = some (.ok (.crc (crc16 s.cfg bytes)))

/-- 40_crc.md R106, R107: the checksum of a frame, and that folding each byte as it arrives, with 0x00 twice in place
of the checksum bytes, gives the same. -/
def Obligations.FrameCrcCoversWholeFrame : Prop :=
  (∀ (cfg : Config) (sender receiver : Byte) (body : List Byte), body.length ≤ 65535 →
    frameCrc cfg sender receiver body =
      crc16 cfg ([cfg.pStart, sender, receiver, BitVec.ofNat 8 (body.length / 256), BitVec.ofNat 8 body.length] ++ body
        ++ [0x00#8, 0x00#8] ++ [cfg.pEnd])) ∧
  (∀ (cfg : Config) (sender receiver : Byte) (body : List Byte), body.length ≤ 65535 →
    frameCrc cfg sender receiver body =
      crcStep cfg (crcStep cfg (crcStep cfg
        (body.foldl (crcStep cfg)
          (crcStep cfg (crcStep cfg (crcStep cfg (crcStep cfg (crcStep cfg cfg.crcInit cfg.pStart) sender) receiver)
            (BitVec.ofNat 8 (body.length / 256))) (BitVec.ofNat 8 body.length)))
        0x00#8) 0x00#8) cfg.pEnd ^^^ cfg.crcXorOut)

/-- 40_crc.md R108: two frames of equal length that differ in one bit outside the checksum bytes have different
checksums, under both CRC_ALGO values. -/
def Obligations.SingleBitErrorChangesFrameCrc : Prop :=
  ∀ (cfg : Config) (frame : List Byte) (offset bit : Nat), 8 ≤ frame.length → offset < frame.length → bit < 8 →
    offset ≠ frame.length - 3 → offset ≠ frame.length - 2 →
    crcOfFrameBytes cfg (flipBit frame offset bit) ≠ crcOfFrameBytes cfg frame

/-! ### Framer -/

/-- 41_framer.md R120: the frame is built, emitted and returned; a body over 65535 bytes is refused with nothing
emitted; its example. -/
def Obligations.FrameEncEmitsAndReturnsFrame : Prop :=
  (∀ (s : State) (sender receiver : Byte) (body : List Byte), s.opBusy = false → body.length ≤ 65535 →
    exec (.frameEnc sender receiver body) s = .next { s with
      txOut := s.txOut ++ ([s.cfg.pStart, sender, receiver, BitVec.ofNat 8 (body.length / 256),
        BitVec.ofNat 8 body.length] ++ body ++ [hiByte (frameCrc s.cfg sender receiver body),
        loByte (frameCrc s.cfg sender receiver body)] ++ [s.cfg.pEnd])
      completions := s.completions ++ [.ok (.frame ([s.cfg.pStart, sender, receiver,
        BitVec.ofNat 8 (body.length / 256), BitVec.ofNat 8 body.length] ++ body ++
        [hiByte (frameCrc s.cfg sender receiver body), loByte (frameCrc s.cfg sender receiver body)] ++
        [s.cfg.pEnd]))] }) ∧
  (∀ (s : State) (sender receiver : Byte) (body : List Byte), s.opBusy = false → 65535 < body.length →
    exec (.frameEnc sender receiver body) s = .next { s with
      completions := s.completions ++ [.err (.frameBodyTooLong body.length)] }) ∧
  encodedFrame Config.reference 0x12#8 0x34#8 [] =
    [0x02#8, 0x12#8, 0x34#8, 0x00#8, 0x00#8, 0x6C#8, 0xFA#8, 0x03#8]

/-- 30_encoding.md R70, R71: a frame field by field, at the offsets of its table. -/
def Obligations.FrameFieldsAtTheirOffsets : Prop :=
  ∀ (cfg : Config) (sender receiver : Byte) (body : List Byte), body.length ≤ 65535 →
    (encodedFrame cfg sender receiver body).length = 8 + body.length ∧
    (encodedFrame cfg sender receiver body)[0]? = some cfg.pStart ∧
    (encodedFrame cfg sender receiver body)[1]? = some sender ∧
    (encodedFrame cfg sender receiver body)[2]? = some receiver ∧
    (∃ hi lo, (encodedFrame cfg sender receiver body)[3]? = some hi ∧
      (encodedFrame cfg sender receiver body)[4]? = some lo ∧ hi.toNat * 256 + lo.toNat = body.length) ∧
    (∀ i, i < body.length → (encodedFrame cfg sender receiver body)[5 + i]? = body[i]?) ∧
    (∃ hi lo, (encodedFrame cfg sender receiver body)[5 + body.length]? = some hi ∧
      (encodedFrame cfg sender receiver body)[6 + body.length]? = some lo ∧
      hi.toNat * 256 + lo.toNat = (frameCrc cfg sender receiver body).toNat) ∧
    (encodedFrame cfg sender receiver body)[7 + body.length]? = some cfg.pEnd

/-- 41_framer.md R123: a frame that FRAME.ENC emits carries its own length and its own checksum, and a FRAME.DEC with an accepting own_id takes it from RX_IN and returns it field by
field, in 8 + n deframer steps with no TIMEOUT among them; the bytes after the frame stay. -/
def Obligations.EncodedFrameDecodesToItsFields : Prop :=
  ∀ (s : State) (sender receiver own : Byte) (body rest : List Byte) (later : List Turn),
    s.cfg.wf = true → s.opBusy = false → body.length ≤ 65535 → (own = receiver ∨ receiver = 0xFF#8) →
    s.rxIn = encodedFrame s.cfg sender receiver body ++ rest →
    s.agenda = List.replicate (8 + body.length) .deframer ++ later →
    (∃ u, exec (.frameEnc sender receiver body) s = .next u ∧
      u.txOut = s.txOut ++ encodedFrame s.cfg sender receiver body) ∧
    ((encodedFrame s.cfg sender receiver body)[3]? = some (BitVec.ofNat 8 (body.length / 256)) ∧
      (encodedFrame s.cfg sender receiver body)[4]? = some (BitVec.ofNat 8 body.length)) ∧
    ((encodedFrame s.cfg sender receiver body)[5 + body.length]? =
        some (hiByte (frameCrc s.cfg sender receiver body)) ∧
      (encodedFrame s.cfg sender receiver body)[6 + body.length]? =
        some (loByte (frameCrc s.cfg sender receiver body))) ∧
    ∃ issued t, exec (.frameDec own) s = .next issued ∧ run (8 + body.length) issued = .next t ∧
      t.completions = s.completions ++
        [.ok (.packet ⟨sender, receiver, body, frameCrc s.cfg sender receiver body⟩)] ∧
      t.rxState = .idle ∧ t.opBusy = false ∧ t.rxIn = rest ∧ t.agenda = later

/-! ### Deframer -/

/-- 42_deframer.md R140. -/
def Obligations.FrameDecIssues : Prop :=
  ∀ (s : State) (own : Byte), s.opBusy = false →
    exec (.frameDec own) s = .next { s with rxOwnId := own, rxState := .awaitStart, opBusy := true }

/-- 42_deframer.md R149: the deframer step is enabled exactly when RX_STATE ≠ Idle and RX_IN is not empty, and then
takes one byte. -/
def Obligations.DeframerStepTakesOneByte : Prop :=
  (∀ s : State, s.rxState = .idle ∨ s.rxIn = [] → deframeStep s = .next s) ∧
  (∀ (s : State) (b : Byte) (rest : List Byte), s.rxState ≠ .idle → s.rxIn = b :: rest →
    deframeStep s = deframeByte b { s with rxIn := rest }) ∧
  (∀ (s t : State) (b : Byte) (rest : List Byte), s.rxState ≠ .idle → s.rxIn = b :: rest →
    deframeStep s = .next t → t.rxIn = rest)

/-- 42_deframer.md R141, R142, R143, R144, R145: the five header states, byte by byte. -/
def Obligations.DeframerHeaderBytes : Prop :=
  (∀ (s : State) (b : Byte) (rest : List Byte), s.rxState = .awaitStart → s.rxIn = b :: rest →
    deframeStep s = .next { s with
      rxIn := rest, rxState := if b = s.cfg.pStart then .senderId else .awaitStart }) ∧
  (∀ (s : State) (b : Byte) (rest : List Byte), s.rxState = .senderId → s.rxIn = b :: rest →
    deframeStep s = .next { s with rxIn := rest, rxSender := b, rxState := .receiverId }) ∧
  (∀ (s : State) (b : Byte) (rest : List Byte), s.rxState = .receiverId → s.rxIn = b :: rest →
    deframeStep s = .next { s with rxIn := rest, rxReceiver := b, rxState := .lenHi }) ∧
  (∀ (s : State) (b : Byte) (rest : List Byte), s.rxState = .lenHi → s.rxIn = b :: rest →
    deframeStep s = .next { s with rxIn := rest, rxLenHi := b, rxState := .lenLo }) ∧
  (∀ (s : State) (b : Byte) (rest : List Byte), s.rxState = .lenLo → s.rxIn = b :: rest →
    deframeStep s = .next { s with
      rxIn := rest
      rxLen := (s.rxLenHi.setWidth 16 <<< 8) ||| b.setWidth 16
      rxCount := 0#16
      rxState := if (s.rxLenHi.setWidth 16 <<< 8) ||| b.setWidth 16 = 0#16 then .checksumHi else .body })

/-- 42_deframer.md R146, 20_memory.md R53: a body byte goes to the cell RX_COUNT; every other cell reads as before. -/
def Obligations.DeframerBodyByte : Prop :=
  ∀ (s : State) (b : Byte) (rest : List Byte), s.rxState = .body → s.rxIn = b :: rest → s.rxCount.toNat < 65535 →
    ∃ t, deframeStep s = .next t ∧
      t = { s with
        rxIn := rest
        rxBody := t.rxBody
        rxCount := s.rxCount + 1#16
        rxState := if s.rxCount + 1#16 = s.rxLen then .checksumHi else .body } ∧
      memRead t.rxBody s.rxCount.toNat = some b ∧
      ∀ a, a ≠ s.rxCount.toNat → memRead t.rxBody a = memRead s.rxBody a

/-- 42_deframer.md R147, R148. -/
def Obligations.DeframerChecksumBytes : Prop :=
  (∀ (s : State) (b : Byte) (rest : List Byte), s.rxState = .checksumHi → s.rxIn = b :: rest →
    deframeStep s = .next { s with rxIn := rest, rxChkHi := b, rxState := .checksumLo }) ∧
  (∀ (s : State) (b : Byte) (rest : List Byte), s.rxState = .checksumLo → s.rxIn = b :: rest →
    deframeStep s = .next { s with
      rxIn := rest, rxChk := (s.rxChkHi.setWidth 16 <<< 8) ||| b.setWidth 16, rxState := .awaitEnd })

/-- 42_deframer.md R150: the checks of AwaitEnd in their order, on the body that RX_BODY holds; the decode ends and
nothing outside the deframer changes. -/
def Obligations.AwaitEndChecksInOrder : Prop :=
  ∀ (s : State) (b : Byte) (rest body : List Byte), s.rxState = .awaitEnd → s.rxIn = b :: rest →
    body.length = s.rxLen.toNat → (∀ i, i < body.length → memRead s.rxBody i = body[i]?) →
    ∃ t, deframeStep s = .next t ∧ t.rxState = .idle ∧ t.opBusy = false ∧ t.rxIn = rest ∧
      t.cfg = s.cfg ∧ t.crcReg = s.crcReg ∧ t.txOut = s.txOut ∧ t.issues = s.issues ∧ t.agenda = s.agenda ∧
      (b ≠ s.cfg.pEnd → t.completions = s.completions ++ [.err (.malformedFrame b)]) ∧
      (b = s.cfg.pEnd → frameCrc s.cfg s.rxSender s.rxReceiver body ≠ s.rxChk →
        t.completions = s.completions ++
          [.err (.checksumMismatch s.rxChk (frameCrc s.cfg s.rxSender s.rxReceiver body))]) ∧
      (b = s.cfg.pEnd → frameCrc s.cfg s.rxSender s.rxReceiver body = s.rxChk → s.rxReceiver ≠ s.rxOwnId →
        s.rxReceiver ≠ 0xFF#8 → t.completions = s.completions ++ [.err (.recipientMismatch s.rxReceiver)]) ∧
      (b = s.cfg.pEnd → frameCrc s.cfg s.rxSender s.rxReceiver body = s.rxChk →
        (s.rxReceiver = s.rxOwnId ∨ s.rxReceiver = 0xFF#8) →
        t.completions = s.completions ++ [.ok (.packet ⟨s.rxSender, s.rxReceiver, body, s.rxChk⟩)])

/-- 30_encoding.md R73 with 42_deframer.md R141 to R150: from AwaitStart, the deframer takes any bytes of the frame's
layout in exactly 8 + n steps and answers what R150's order of checks says of the whole frame; the bytes after it
stay in RX_IN (R159) and nothing outside the deframer changes. -/
def Obligations.DeframerReadsFrameByItsLength : Prop :=
  ∀ (s : State) (sender receiver endByte : Byte) (body rest : List Byte) (checksum : Word) (later : List Turn),
    s.cfg.wf = true → s.rxState = .awaitStart → body.length ≤ 65535 →
    s.rxIn = frameLayout s.cfg sender receiver body checksum endByte ++ rest →
    s.agenda = List.replicate (8 + body.length) .deframer ++ later →
    ∃ t, run (8 + body.length) s = .next t ∧ t.rxState = .idle ∧ t.opBusy = false ∧ t.rxIn = rest ∧
      t.agenda = later ∧ t.issues = s.issues ∧ t.cfg = s.cfg ∧ t.crcReg = s.crcReg ∧ t.txOut = s.txOut ∧
      t.completions = s.completions ++
        [if endByte ≠ s.cfg.pEnd then .err (.malformedFrame endByte)
          else if frameCrc s.cfg sender receiver body ≠ checksum then
            .err (.checksumMismatch checksum (frameCrc s.cfg sender receiver body))
          else if receiver ≠ s.rxOwnId ∧ receiver ≠ 0xFF#8 then .err (.recipientMismatch receiver)
          else .ok (.packet ⟨sender, receiver, body, checksum⟩)]

/-- 42_deframer.md R141: a run of non-START bytes of any length keeps the machine in AwaitStart, with no completion
and nothing kept of them. -/
def Obligations.NoiseBeforeStartIsDiscarded : Prop :=
  ∀ (s : State) (noise rest : List Byte) (later : List Turn), s.cfg.wf = true → s.rxState = .awaitStart →
    (∀ b ∈ noise, b ≠ s.cfg.pStart) → s.rxIn = noise ++ rest →
    s.agenda = List.replicate noise.length .deframer ++ later →
    run noise.length s = .next { s with rxIn := rest, agenda := later }

/-- 42_deframer.md R152, R153: TIMEOUT ends a decode in every state of it, also with bytes waiting, which stay; in Idle
it has no effect. -/
def Obligations.TimeoutEndsDecode : Prop :=
  (∀ (s : State) (later : List Turn), s.cfg.wf = true → s.agenda = .timer :: later → s.rxState ≠ .idle →
    ∃ t, step s = .next t ∧ t.rxState = .idle ∧ t.opBusy = false ∧
      t.completions = s.completions ++ [.err .timeout] ∧ t.rxIn = s.rxIn ∧ t.txOut = s.txOut ∧
      t.crcReg = s.crcReg ∧ t.cfg = s.cfg ∧ t.issues = s.issues ∧ t.agenda = later) ∧
  (∀ (s : State) (later : List Turn), s.cfg.wf = true → s.agenda = .timer :: later → s.rxState = .idle →
    step s = .next { s with agenda := later })

/-- 42_deframer.md R151: every Packet delivered from a good state has the declared length, its own checksum and an
accepted receiver. -/
def Obligations.DeliveredPacketInvariants : Prop :=
  ∀ (s t : State) (p : Packet), s.Inv → step s = .next t → t.completions = s.completions ++ [.ok (.packet p)] →
    p.body.length = s.rxLen.toNat ∧ p.checksum = frameCrc s.cfg p.senderId p.receiverId p.body ∧
      (p.receiverId = s.rxOwnId ∨ p.receiverId = 0xFF#8)

/-- 42_deframer.md R156: a FRAME.DEC completes with exactly one of five outcomes, and MALFORMED_FRAME has one cause. -/
def Obligations.DecodeHasFiveOutcomes : Prop :=
  ∀ s t : State, s.Inv → s.opBusy = true → step s = .next t → t.completions ≠ s.completions →
    ∃ c, t.completions = s.completions ++ [c] ∧ t.opBusy = false ∧ t.rxState = .idle ∧
      ((∃ p, c = .ok (.packet p)) ∨ c = .err .timeout ∨ (∃ b, c = .err (.malformedFrame b)) ∨
        (∃ r k, c = .err (.checksumMismatch r k)) ∨ ∃ r, c = .err (.recipientMismatch r)) ∧
      ∀ b, c = .err (.malformedFrame b) → s.rxState = .awaitEnd ∧ b ≠ s.cfg.pEnd ∧ s.rxIn.head? = some b

/-- 42_deframer.md R157 for the offsets whose outcome it fixes: one flipped bit in SENDER_ID, RECEIVER_ID, BODY or the
checksum bytes of an emitted frame gives CHECKSUM_MISMATCH, in END gives MALFORMED_FRAME, and in START begins no
frame. (LEN_HI and LEN_LO, for which R157 gives no single outcome, are not in this statement.) -/
def Obligations.FlippedBitIsDetected : Prop :=
  ∀ (s : State) (sender receiver : Byte) (body rest : List Byte) (offset bit : Nat) (later : List Turn),
    s.cfg.wf = true → s.rxState = .awaitStart → body.length ≤ 65535 → bit < 8 →
    (receiver = s.rxOwnId ∨ receiver = 0xFF#8) →
    s.rxIn = flipBit (encodedFrame s.cfg sender receiver body) offset bit ++ rest →
    s.agenda = List.replicate (8 + body.length) .deframer ++ later →
    (offset = 0 → ∃ t, run 1 s = .next t ∧ t.rxState = .awaitStart ∧ t.completions = s.completions) ∧
    (offset = 1 ∨ offset = 2 ∨ (5 ≤ offset ∧ offset < 7 + body.length) →
      ∃ t received computed, run (8 + body.length) s = .next t ∧ t.rxIn = rest ∧
        t.completions = s.completions ++ [.err (.checksumMismatch received computed)]) ∧
    (offset = 7 + body.length →
      ∃ t b, run (8 + body.length) s = .next t ∧ t.rxIn = rest ∧
        t.completions = s.completions ++ [.err (.malformedFrame b)])

/-! ### Command encoder -/

/-- 30_encoding.md R80: a flags byte carries each field at its position, and every bit no field owns is 0; at the
reference positions it is the sum R181, R182 and R184 write. -/
def Obligations.FlagsBytesCarryTheirFields : Prop :=
  (∀ (cfg : Config) (pullup pulldown analog invert direct : Bool), cfg.wf = true →
    (readFlags cfg pullup pulldown analog invert direct).getLsbD cfg.readPullupBit = pullup ∧
    (readFlags cfg pullup pulldown analog invert direct).getLsbD cfg.readPulldownBit = pulldown ∧
    (readFlags cfg pullup pulldown analog invert direct).getLsbD cfg.readAnalogBit = analog ∧
    (readFlags cfg pullup pulldown analog invert direct).getLsbD cfg.readInvertBit = invert ∧
    (readFlags cfg pullup pulldown analog invert direct).getLsbD cfg.readDirectBit = direct ∧
    ∀ p : Fin 8, p ∉ [cfg.readPullupBit, cfg.readPulldownBit, cfg.readAnalogBit, cfg.readInvertBit,
      cfg.readDirectBit] → (readFlags cfg pullup pulldown analog invert direct).getLsbD p = false) ∧
  (∀ (cfg : Config) (analog invert : Bool), cfg.wf = true →
    (writeFlags cfg analog invert).getLsbD cfg.writeAnalogBit = analog ∧
    (writeFlags cfg analog invert).getLsbD cfg.writeInvertBit = invert ∧
    ∀ p : Fin 8, p ∉ [cfg.writeAnalogBit, cfg.writeInvertBit] → (writeFlags cfg analog invert).getLsbD p = false) ∧
  (∀ (cfg : Config) (stop : Bool),
    (i2cFlags cfg stop).getLsbD cfg.i2cStopBit = stop ∧
    ∀ p : Fin 8, p ≠ cfg.i2cStopBit → (i2cFlags cfg stop).getLsbD p = false) ∧
  (∀ pullup pulldown analog invert direct : Bool,
    readFlags Config.reference pullup pulldown analog invert direct =
      (BitVec.ofBool pullup).setWidth 8 ||| ((BitVec.ofBool pulldown).setWidth 8 <<< 1) |||
        ((BitVec.ofBool analog).setWidth 8 <<< 2) ||| ((BitVec.ofBool invert).setWidth 8 <<< 3) |||
        ((BitVec.ofBool direct).setWidth 8 <<< 4)) ∧
  (∀ analog invert : Bool, writeFlags Config.reference analog invert =
    (BitVec.ofBool analog).setWidth 8 ||| ((BitVec.ofBool invert).setWidth 8 <<< 1)) ∧
  (∀ stop : Bool, i2cFlags Config.reference stop = (BitVec.ofBool stop).setWidth 8)

/-- 43_command_encoder.md R181, with its example. -/
def Obligations.CmdEncReadBuildsBody : Prop :=
  (∀ (s : State) (pin : Byte) (pullup pulldown analog invert direct : Bool), s.opBusy = false →
    exec (.cmdEncRead pin pullup pulldown analog invert direct) s = .next { s with
      completions := s.completions ++
        [.ok (.body [s.cfg.typeRead, pin, readFlags s.cfg pullup pulldown analog invert direct])] }) ∧
  (∀ pullup pulldown analog invert direct : Bool,
    readFlags Config.reference pullup pulldown analog invert direct =
      (BitVec.ofBool pullup).setWidth 8 ||| ((BitVec.ofBool pulldown).setWidth 8 <<< 1) |||
        ((BitVec.ofBool analog).setWidth 8 <<< 2) ||| ((BitVec.ofBool invert).setWidth 8 <<< 3) |||
        ((BitVec.ofBool direct).setWidth 8 <<< 4)) ∧
  (∀ s : State, s.opBusy = false → s.cfg = Config.reference →
    exec (.cmdEncRead 14#8 true false true false false) s = .next { s with
      completions := s.completions ++ [.ok (.body [0x01#8, 0x0E#8, 0x05#8])] })

/-- 43_command_encoder.md R182, with the source's example. -/
def Obligations.CmdEncWriteBuildsBody : Prop :=
  (∀ (s : State) (pin : Byte) (value : Word) (analog invert : Bool), s.opBusy = false →
    exec (.cmdEncWrite pin value analog invert) s = .next { s with
      completions := s.completions ++
        [.ok (.body [s.cfg.typeWrite, pin, BitVec.ofNat 8 (value.toNat / 256), BitVec.ofNat 8 value.toNat,
          writeFlags s.cfg analog invert])] }) ∧
  (∀ analog invert : Bool, writeFlags Config.reference analog invert =
    (BitVec.ofBool analog).setWidth 8 ||| ((BitVec.ofBool invert).setWidth 8 <<< 1)) ∧
  (∀ s : State, s.opBusy = false →
    exec (.cmdEncWrite 5#8 1#16 false false) s = .next { s with
      completions := s.completions ++ [.ok (.body [s.cfg.typeWrite, 0x05#8, 0x00#8, 0x01#8, 0x00#8])] })

/-- 43_command_encoder.md R183. -/
def Obligations.CmdEncToggleBuildsBody : Prop :=
  ∀ (s : State) (pin : Byte), s.opBusy = false →
    exec (.cmdEncToggle pin) s = .next { s with
      completions := s.completions ++ [.ok (.body [s.cfg.typeToggle, pin])] }

/-- 43_command_encoder.md R184, with the source's example. -/
def Obligations.CmdEncI2cWriteBuildsBody : Prop :=
  (∀ (s : State) (address : Byte) (data : List Byte) (stop : Bool), s.opBusy = false → data.length ≤ 65532 →
    exec (.cmdEncI2cWrite address data stop) s = .next { s with
      completions := s.completions ++ [.ok (.body ([s.cfg.typeI2cWrite, address, i2cFlags s.cfg stop] ++ data))] }) ∧
  (∀ (s : State) (address : Byte) (data : List Byte) (stop : Bool), s.opBusy = false → 65532 < data.length →
    exec (.cmdEncI2cWrite address data stop) s = .next { s with
      completions := s.completions ++ [.err (.encBodyTooLong data.length)] }) ∧
  (∀ stop : Bool, i2cFlags Config.reference stop = (BitVec.ofBool stop).setWidth 8) ∧
  (∀ s : State, s.opBusy = false → s.cfg = Config.reference →
    exec (.cmdEncI2cWrite 0x50#8 [0x01#8, 0x02#8] true) s = .next { s with
      completions := s.completions ++ [.ok (.body [0x04#8, 0x50#8, 0x01#8, 0x01#8, 0x02#8])] })

/-- The model's reading of the table's request rows (notes/assumptions/5.md): a request body completes with the body that
CMD.ENC builds for its fields. -/
def Obligations.RequestRowsCompleteWithTheirBody : Prop :=
  (∀ (s : State) (pin : Byte) (pullup pulldown analog invert direct : Bool), s.opBusy = false →
    exec (.reqRead pin pullup pulldown analog invert direct) s = .next { s with
      completions := s.completions ++
        [.ok (.body (encode s.cfg (.reqRead pin pullup pulldown analog invert direct)).bytes)] }) ∧
  (∀ (s : State) (pin : Byte) (value : Word) (analog invert : Bool), s.opBusy = false →
    exec (.reqWrite pin value analog invert) s = .next { s with
      completions := s.completions ++ [.ok (.body (encode s.cfg (.reqWrite pin value analog invert)).bytes)] }) ∧
  (∀ (s : State) (pin : Byte), s.opBusy = false →
    exec (.reqToggle pin) s = .next { s with
      completions := s.completions ++ [.ok (.body (encode s.cfg (.reqToggle pin)).bytes)] }) ∧
  (∀ (s : State) (address : Byte) (data : List Byte) (stop : Bool), s.opBusy = false → data.length ≤ 65532 →
    exec (.reqI2cWrite address data stop) s = .next { s with
      completions := s.completions ++ [.ok (.body (encode s.cfg (.reqI2cWrite address data stop)).bytes)] }) ∧
  (∀ (s : State) (address : Byte) (data : List Byte) (stop : Bool), s.opBusy = false → 65532 < data.length →
    exec (.reqI2cWrite address data stop) s = .next { s with
      completions := s.completions ++ [.err (.encBodyTooLong data.length)] })

/-- 43_command_encoder.md R185: under a well-formed configuration no body the command encoder answers with begins with
TYPE_ERROR or a RESP value. -/
def Obligations.RequestsNeverLookLikeResponses : Prop :=
  ∀ (s t : State) (i : Instr) (body : List Byte), s.cfg.wf = true → exec i s = .next t →
    t.completions = s.completions ++ [.ok (.body body)] →
    ∃ first, body.head? = some first ∧ first ≠ s.cfg.typeError ∧
      ∀ t' ∈ [s.cfg.typeRead, s.cfg.typeWrite, s.cfg.typeToggle, s.cfg.typeI2cWrite], first ≠ t' ||| s.cfg.respTag

/-! ### Response decoder -/

/-- 44_response_decoder.md R201, R202, R203, R204, R206: a body of the expected shape is decoded, kind by kind, and an
Error body is recognised for every expected kind (under 00_scope.md R8 (2), which every well-formed configuration
meets). -/
def Obligations.RspDecDecodesItsShapes : Prop :=
  (∀ (s : State) (hi lo : Byte), s.opBusy = false →
    exec (.rspDecRead [s.cfg.typeRead ||| s.cfg.respTag, hi, lo]) s = .next { s with
      completions := s.completions ++
        [.ok (.response (.read ((hi.setWidth 16 <<< 8) ||| lo.setWidth 16)))] }) ∧
  (∀ s : State, s.opBusy = false →
    exec (.rspDecWrite [s.cfg.typeWrite ||| s.cfg.respTag]) s = .next { s with
      completions := s.completions ++ [.ok (.response .write)] }) ∧
  (∀ (s : State) (newValue : Byte), s.opBusy = false →
    exec (.rspDecToggle [s.cfg.typeToggle ||| s.cfg.respTag, newValue]) s = .next { s with
      completions := s.completions ++ [.ok (.response (.toggle newValue))] }) ∧
  (∀ (s : State) (code : Byte), s.opBusy = false →
    exec (.rspDecI2cWrite [s.cfg.typeI2cWrite ||| s.cfg.respTag, code]) s = .next { s with
      completions := s.completions ++ [.ok (.response (.i2cWrite (i2cResult s.cfg code)))] }) ∧
  (∀ (s : State) (kind : Kind) (code : Byte), s.opBusy = false → s.cfg.responseTypesDistinct = true →
    exec (rspDecOf kind [s.cfg.typeError, code]) s = .next { s with
      completions := s.completions ++ [.err (if code = 0x03#8 then .invalidPin else .remoteError code)] })

/-- 44_response_decoder.md R205: the result codes, each of the 256. -/
def Obligations.I2cResultCodes : Prop :=
  i2cResult Config.reference 0x00#8 = .success ∧ i2cResult Config.reference 0x01#8 = .dataTooLong ∧
  i2cResult Config.reference 0x02#8 = .nackOnAddress ∧ i2cResult Config.reference 0x03#8 = .nackOnData ∧
  i2cResult Config.reference 0x04#8 = .other ∧ i2cResult Config.reference 0x05#8 = .timeout ∧
  (∀ code : Byte, 0x06 ≤ code.toNat → i2cResult Config.reference code = .unknown code)

/-- 44_response_decoder.md R200: the three tiers, in their order, for every kind and every body. -/
def Obligations.RspDecThreeTiers : Prop :=
  ∀ (s : State) (kind : Kind) (body : List Byte), s.opBusy = false →
    exec (rspDecOf kind body) s = .next { s with
      completions := s.completions ++
        [match kind, body with
          | .read, [t, hi, lo] =>
            if t = s.cfg.typeRead ||| s.cfg.respTag then
              .ok (.response (.read ((hi.setWidth 16 <<< 8) ||| lo.setWidth 16)))
            else .err (.responseMismatch .read 3 (some t))
          | .read, [t, code] =>
            if t = s.cfg.typeError then .err (if code = 0x03#8 then .invalidPin else .remoteError code)
            else .err (.responseMismatch .read 2 (some t))
          | .write, [t] =>
            if t = s.cfg.typeWrite ||| s.cfg.respTag then .ok (.response .write)
            else .err (.responseMismatch .write 1 (some t))
          | .write, [t, code] =>
            if t = s.cfg.typeError then .err (if code = 0x03#8 then .invalidPin else .remoteError code)
            else .err (.responseMismatch .write 2 (some t))
          | .toggle, [t, newValue] =>
            if t = s.cfg.typeToggle ||| s.cfg.respTag then .ok (.response (.toggle newValue))
            else if t = s.cfg.typeError then .err (if newValue = 0x03#8 then .invalidPin else .remoteError newValue)
            else .err (.responseMismatch .toggle 2 (some t))
          | .i2cWrite, [t, code] =>
            if t = s.cfg.typeI2cWrite ||| s.cfg.respTag then .ok (.response (.i2cWrite (i2cResult s.cfg code)))
            else if t = s.cfg.typeError then .err (if code = 0x03#8 then .invalidPin else .remoteError code)
            else .err (.responseMismatch .i2cWrite 2 (some t))
          | kind, body => .err (.responseMismatch kind body.length body.head?)] }

/-- 44_response_decoder.md R207: RESPONSE_MISMATCH is raised exactly when the body matches neither the expected shape nor
the Error shape. -/
def Obligations.MismatchExactlyWhenNeitherShape : Prop :=
  ∀ (s t : State) (kind : Kind) (body : List Byte), s.opBusy = false → exec (rspDecOf kind body) s = .next t →
    (t.completions = s.completions ++ [.err (.responseMismatch kind body.length body.head?)] ↔
      ¬ (body.length = responseLength kind ∧ body.head? = some (s.cfg.requestType kind ||| s.cfg.respTag)) ∧
        ¬ (body.length = 2 ∧ body.head? = some s.cfg.typeError))

/-- 44_response_decoder.md R208: under R8 (2), which every well-formed configuration meets, at most one of the expected shape and the Error shape
matches a body. -/
def Obligations.AtMostOneShapeMatches : Prop :=
  ∀ (cfg : Config) (kind : Kind) (body : List Byte), cfg.responseTypesDistinct = true →
    matchesShape body (cfg.responseType kind) (responseLength kind) = true →
    matchesShape body cfg.typeError 2 = false

/-- The model's reading of the table's response rows (notes/assumptions/5.md): each is decoded where its own kind is
expected; an Error body needs no kind. -/
def Obligations.ResponseRowsDecode : Prop :=
  (∀ (s : State) (value : Word), s.opBusy = false →
    exec (.rspRead value) s = .next { s with completions := s.completions ++ [.ok (.response (.read value))] }) ∧
  (∀ s : State, s.opBusy = false →
    exec .rspWrite s = .next { s with completions := s.completions ++ [.ok (.response .write)] }) ∧
  (∀ (s : State) (newValue : Byte), s.opBusy = false →
    exec (.rspToggle newValue) s = .next { s with
      completions := s.completions ++ [.ok (.response (.toggle newValue))] }) ∧
  (∀ (s : State) (code : Byte), s.opBusy = false →
    exec (.rspI2cWrite code) s = .next { s with
      completions := s.completions ++ [.ok (.response (.i2cWrite (i2cResult s.cfg code)))] }) ∧
  (∀ (s : State) (code : Byte), s.opBusy = false →
    exec (.rspError code) s = .next { s with
      completions := s.completions ++ [.err (if code = 0x03#8 then .invalidPin else .remoteError code)] })

/-! ### Sequencer, channels, errors, reset -/

/-- 60_exceptions.md R233. -/
def Obligations.ReservedOpcCompletesIllegalOp : Prop :=
  (∀ s : State, s.opBusy = false →
    exec .reservedOpc7 s = .next { s with completions := s.completions ++ [.err (.illegalOp 0x7#4)] }) ∧
  (∀ (s : State) (low : BitVec 3), s.opBusy = false →
    exec (.reservedOpcHigh low) s = .next { s with
      completions := s.completions ++ [.err (.illegalOp (BitVec.ofNat 4 (8 + low.toNat)))] })

/-- 10_state.md R22: while OP_BUSY = 1 HOST is held: no operation has any effect, none is refused, and it stays in
HOST's queue. -/
def Obligations.BusyHoldsHost : Prop :=
  (∀ (s : State) (i : Instr), fromHost i = true → s.opBusy = true → exec i s = .next s) ∧
  (∀ (s : State) (iss : Issue) (rest : List Issue) (later : List Turn), s.cfg.wf = true → s.opBusy = true →
    s.issues = iss :: rest → iss.port ≠ .frame → s.agenda = .issue :: later →
    step s = .next { s with agenda := later })

/-- The model's reading of the table's frame row (notes/assumptions/5.md): RX_SOURCE appends the frame's bytes to RX_IN
(10_state.md R33), also while the block is busy. -/
def Obligations.FrameRowArrivesInRxIn : Prop :=
  ∀ (s : State) (sender receiver endByte : Byte) (body : List Byte) (checksum : Word), body.length ≤ 65535 →
    exec (.sdspFrame sender receiver body checksum endByte) s = .next { s with
      rxIn := s.rxIn ++ ([s.cfg.pStart, sender, receiver, BitVec.ofNat 8 (body.length / 256),
        BitVec.ofNat 8 body.length] ++ body ++ [hiByte checksum, loByte checksum] ++ [endByte]) }

/-- 10_state.md R33, R34: RX_SOURCE appends to RX_IN and TX_SINK removes from the head of TX_OUT, and neither move touches
anything else. (Where TX_SINK asks for more bytes than there are: notes/assumptions/15.md.) -/
def Obligations.ChannelMoves : Prop :=
  (∀ (s : State) (bytes : List Byte) (later : List Turn), s.cfg.wf = true → s.agenda = .rxSource bytes :: later →
    step s = .next { s with rxIn := s.rxIn ++ bytes, agenda := later }) ∧
  (∀ (s : State) (sent rest : List Byte) (later : List Turn), s.cfg.wf = true → s.txOut = sent ++ rest →
    s.agenda = .txSink sent.length :: later → step s = .next { s with txOut := rest, agenda := later })

/-- 20_memory.md R62, with 10_state.md R33 and 20_memory.md R56: no step drops a byte of RX_IN but the head byte that a
deframer step takes, when the move is the deframer's (or the transport's own flush at reset, 70_reset_and_hazards.md R271). -/
def Obligations.UntakenBytesAreKept : Prop :=
  ∀ s t : State, step s = .next t →
    t.rxIn = s.rxIn ∨
      ((s.agenda.head? = some .deframer ∨ (s.agenda = [] ∧ defaultTurn s = .deframer)) ∧ s.rxState ≠ .idle ∧
        ∃ b, s.rxIn = b :: t.rxIn) ∨
      (∃ bytes, t.rxIn = s.rxIn ++ bytes) ∨
      (s.agenda.head? = some .reset ∧ s.cfg.flushOnReset = true ∧ t.rxIn = [])

/-- 20_memory.md R57, 10_state.md R34: TX_OUT grows only by one whole frame, returned in the same step, and shrinks only
at its head (or at the transport's own flush). -/
def Obligations.TxOutGrowsByWholeFrames : Prop :=
  ∀ s t : State, step s = .next t →
    t.txOut = s.txOut ∨
      (∃ sender receiver body, t.txOut = s.txOut ++ encodedFrame s.cfg sender receiver body ∧
        t.completions = s.completions ++ [.ok (.frame (encodedFrame s.cfg sender receiver body))]) ∨
      (∃ n, s.agenda.head? = some (.txSink n) ∧ t.txOut = s.txOut.drop n) ∨
      (s.agenda.head? = some .reset ∧ s.cfg.flushOnReset = true ∧ t.txOut = [])

/-- 10_state.md R20: only the CRC operations change CRC_REG (and reset, R270). -/
def Obligations.CrcRegChangedOnlyByCrcOperations : Prop :=
  ∀ s t : State, step s = .next t → t.crcReg ≠ s.crcReg →
    (s.agenda.head? = some .reset ∧ t.crcReg = s.cfg.crcInit) ∨
      ∃ iss rest i, s.issues = iss :: rest ∧ decode s.cfg iss = .ok i ∧
        ((i = .crcClear ∧ t.crcReg = s.cfg.crcInit) ∨ ∃ b, i = .crcUpdate b ∧ t.crcReg = crcStep s.cfg s.crcReg b)

/-- 10_state.md R35: no step changes a parameter. -/
def Obligations.ParametersNeverChange : Prop :=
  ∀ s t : State, step s = .next t → t.cfg = s.cfg

/-- 60_exceptions.md R230: a step delivers at most one completion and never removes or alters a delivered one; an
accepted operation other than FRAME.DEC delivers exactly one, in its issue step; FRAME.DEC delivers none at its issue,
and one when the step comes that makes the block free again (reset apart, 70_reset_and_hazards.md R272). -/
def Obligations.CompletionsAreDeliveredOnce : Prop :=
  (∀ s t : State, step s = .next t → t.completions = s.completions ∨ ∃ c, t.completions = s.completions ++ [c]) ∧
  (∀ (s : State) (i : Instr), fromHost i = true → (∀ own, i ≠ .frameDec own) → s.opBusy = false →
    ∃ t c, exec i s = .next t ∧ t.completions = s.completions ++ [c] ∧ t.opBusy = false ∧ t.rxState = s.rxState) ∧
  (∀ (s : State) (own : Byte), s.opBusy = false →
    ∃ t, exec (.frameDec own) s = .next t ∧ t.completions = s.completions ∧ t.opBusy = true) ∧
  (∀ s t : State, s.Inv → s.opBusy = true → step s = .next t → s.agenda.head? ≠ some .reset →
    (t.opBusy = false ↔ ∃ c, t.completions = s.completions ++ [c]))

/-- 60_exceptions.md R236: an operation that completes with an error in its issue step leaves every register and channel
as before. -/
def Obligations.ErrorsArePrecise : Prop :=
  ∀ (s t : State) (i : Instr) (e : Status), exec i s = .next t → t.completions = s.completions ++ [.err e] →
    t = { s with completions := s.completions ++ [.err e] }

/-- 60_exceptions.md R234: the block never raises CLIENT_ERROR. -/
def Obligations.BlockNeverRaisesClientError : Prop :=
  ∀ (s t : State) (code : Byte), step s = .next t → t.completions ≠ s.completions ++ [.err (.clientError code)]

/-- 70_reset_and_hazards.md R270: the state after reset, under every configuration, in which any operation is accepted:
it is answered, or it is FRAME.DEC and begins. The RX registers, which R270 leaves at any value, are not in this
statement. -/
def Obligations.ResetLeavesBlockReady : Prop :=
  (∀ c : Config, (State.resetWith c).cfg = c ∧ (State.resetWith c).crcReg = c.crcInit ∧
    (State.resetWith c).opBusy = false ∧ (State.resetWith c).rxState = .idle) ∧
  (∀ (c : Config) (i : Instr), fromHost i = true → ∃ t, exec i (State.resetWith c) = .next t ∧
    ((∃ completion, t.completions = [completion]) ∨ (t.completions = [] ∧ t.opBusy = true ∧ ∃ own, i = .frameDec own))) ∧
  State.reset = State.resetWith Config.reference

/-- 70_reset_and_hazards.md R270, R271, R272: a reset at any step, even during a decode, gives the reset values, delivers
no completion, and leaves the channels alone unless the transport flushes them. (That HOST's queue and the agenda
survive a reset is the model's choice: notes/assumptions/23.md.) -/
def Obligations.ResetAbandonsDecode : Prop :=
  ∀ (s : State) (later : List Turn), s.cfg.wf = true → s.agenda = .reset :: later →
    ∃ t, step s = .next t ∧ t.crcReg = s.cfg.crcInit ∧ t.opBusy = false ∧ t.rxState = .idle ∧
      t.completions = s.completions ∧ t.cfg = s.cfg ∧ t.issues = s.issues ∧ t.agenda = later ∧
      (s.cfg.flushOnReset = false → t.rxIn = s.rxIn ∧ t.txOut = s.txOut) ∧
      (s.cfg.flushOnReset = true → t.rxIn = [] ∧ t.txOut = [])

/-- 00_scope.md R8: a configuration that fails a condition is refused, and the reference configuration passes. -/
def Obligations.IllFormedConfigurationRefused : Prop :=
  (∀ s : State,
    ¬ [s.cfg.typeRead, s.cfg.typeWrite, s.cfg.typeToggle, s.cfg.typeI2cWrite].Nodup ∨
    ¬ [s.cfg.typeRead ||| s.cfg.respTag, s.cfg.typeWrite ||| s.cfg.respTag, s.cfg.typeToggle ||| s.cfg.respTag,
        s.cfg.typeI2cWrite ||| s.cfg.respTag, s.cfg.typeError].Nodup ∨
    (s.cfg.respTag = 0x80#8 ∧
      ∃ t ∈ [s.cfg.typeRead, s.cfg.typeWrite, s.cfg.typeToggle, s.cfg.typeI2cWrite], t.getLsbD 7 = true) →
    step s = .refused .illFormedConfig) ∧
  Config.reference.wf = true

/-! ### Invariant -/

/-- The invariant holds after reset, under every well-formed configuration. -/
def Obligations.ResetMeetsInvariant : Prop := ∀ c : Config, c.wf = true → (State.resetWith c).Inv

/-- 10_state.md R22, R28 to R31: every step keeps the invariant: OP_BUSY follows RX_STATE, RX_COUNT stays within RX_LEN,
RX_BODY holds exactly the body bytes received so far. -/
def Obligations.StepKeepsInvariant : Prop := ∀ s t : State, s.Inv → step s = .next t → t.Inv

/-- 10_state.md R36: on a legal path no unwritten cell is read: from a state that meets the invariant no step faults. -/
def Obligations.InvariantExcludesFaults : Prop := ∀ (s : State) (f : Fault), s.Inv → step s ≠ .fault f

/-- RX_BODY keeps its canonical form: addresses strictly rising, all below 65535 (20_memory.md R53; notes/assumptions/11.md). -/
def Obligations.StepKeepsBodyMemoryCanonical : Prop :=
  ∀ s t : State, s.rxBody.wf = true → step s = .next t → t.rxBody.wf = true

/-! ### Steps and encodings -/

/-- A step runs the decoded instruction: what is presented and not held is taken from the queue, decoded and run. (The
queue, the agenda and the default move of an empty agenda are the model's choice: notes/assumptions/7.md.) -/
def Obligations.StepRunsPresentedInstruction : Prop :=
  (∀ (s : State) (iss : Issue) (rest : List Issue) (later : List Turn) (i : Instr), s.cfg.wf = true →
    s.agenda = .issue :: later → s.issues = iss :: rest → (s.opBusy = false ∨ iss.port = .frame) →
    decode s.cfg iss = .ok i → step s = exec i { s with agenda := later, issues := rest }) ∧
  (∀ (s : State) (iss : Issue) (rest : List Issue) (i : Instr), s.cfg.wf = true →
    s.agenda = [] → s.issues = iss :: rest → (s.opBusy = false ∨ iss.port = .frame) →
    decode s.cfg iss = .ok i → step s = exec i { s with issues := rest }) ∧
  (∀ (s : State) (later : List Turn), s.cfg.wf = true → s.agenda = .deframer :: later →
    step s = deframeStep { s with agenda := later })

/-- 30_encoding.md R75, R76, R86, R88: words written out from the spec's tables decode to what they stand for. -/
def Obligations.TableWordsDecode : Prop :=
  decode Config.reference ⟨.op, [0x00#8]⟩ = .ok .crcClear ∧
  decode Config.reference ⟨.op, [0x04#8, 0x31#8]⟩ = .ok (.crcUpdate 0x31#8) ∧
  decode Config.reference ⟨.op, [0x0C#8, 0x12#8, 0x34#8]⟩ = .ok (.frameEnc 0x12#8 0x34#8 []) ∧
  decode Config.reference ⟨.op, [0x10#8, 0x34#8]⟩ = .ok (.frameDec 0x34#8) ∧
  decode Config.reference ⟨.op, [0x16#8, 0x0D#8]⟩ = .ok (.cmdEncToggle 0x0D#8) ∧
  decode Config.reference ⟨.op, [0x19#8, 0x82#8]⟩ = .ok (.rspDecWrite [0x82#8]) ∧
  decode Config.reference ⟨.op, [0x1C#8]⟩ = .ok .reservedOpc7 ∧
  decode Config.reference ⟨.op, [0x3C#8]⟩ = .ok (.reservedOpcHigh 7#3) ∧
  decode Config.reference ⟨.reqBody, [0x01#8, 0x0E#8, 0x05#8]⟩ = .ok (.reqRead 0x0E#8 true false true false false) ∧
  decode Config.reference ⟨.rspBody, [0x81#8, 0x03#8, 0xFF#8]⟩ = .ok (.rspRead 0x03FF#16) ∧
  decode Config.reference ⟨.rspBody, [0xFF#8, 0x03#8]⟩ = .ok (.rspError 0x03#8) ∧
  decode Config.reference ⟨.frame, [0x02#8, 0x01#8, 0x00#8, 0x00#8, 0x01#8, 0x82#8, 0x37#8, 0x82#8, 0x03#8]⟩ =
    .ok (.sdspFrame 0x01#8 0x00#8 [0x82#8] 0x3782#16 0x03#8)

/-- Decode and encode agree: under every well-formed configuration, decoding the encoding of a well-formed instruction
gives it back. (The byte layout of an operation's operands is the model's own: notes/assumptions/4.md.) -/
def Obligations.DecodeOfEncode : Prop :=
  ∀ (cfg : Config) (i : Instr), cfg.wf = true → i.wellFormed = true → decode cfg (encode cfg i) = .ok i

/-- On the wire each response body and each frame has one spelling: what decodes is well-formed and encodes to the same
bytes. A request body has one spelling but for the flag bits no field owns, which are never read
(93_implementation_defined.md row 4): it encodes to its bytes with those bits 0 (that a request row carries only its
fields is the model's reading: notes/assumptions/17.md). -/
def Obligations.EncodeOfDecodeOnTheWire : Prop :=
  ∀ (cfg : Config) (iss : Issue) (i : Instr), cfg.wf = true → decode cfg iss = .ok i →
    (iss.port = .rspBody ∨ iss.port = .frame → i.wellFormed = true ∧ encode cfg i = iss) ∧
    (iss.port = .reqBody → i.wellFormed = true ∧ encode cfg i = ⟨.reqBody, clearUnassigned cfg iss.bytes⟩)

/-! ### HOST's dispatcher -/

/-- 60_exceptions.md R245: a transport that always fails gives max_retries + 1 attempts and the last one's error; an
INVALID_PIN on the first attempt gives one attempt. -/
def Obligations.RetryCounts : Prop :=
  (∀ (dc : DispatcherConfig) (attempt : Nat → AttemptOutcome) (error : Nat → Status),
    (∀ k, attempt k = .failed (.status (error k)) ∧ ∃ r, (Failure.status (error k)).errorKind = some (.codecError r)) →
    send dc attempt = ⟨.failed (.status (error dc.maxRetries)), dc.maxRetries + 1, dc.maxRetries⟩) ∧
  (∀ (dc : DispatcherConfig) (attempt : Nat → AttemptOutcome), attempt 0 = .failed (.status .invalidPin) →
    send dc attempt = ⟨.failed (.status .invalidPin), 1, 0⟩) ∧
  (∀ own : Byte, ({ ownId := own } : DispatcherConfig).maxRetries = 2)

/-- 60_exceptions.md R244: `send` stops at the first success or INVALID_PIN, else at the last attempt it is allowed, and
returns that attempt's outcome; one backoff, of 100 ms by default, precedes every attempt but the first. -/
def Obligations.SendStopsAtFirstSuccessOrInvalidPin : Prop :=
  ∀ (dc : DispatcherConfig) (attempt : Nat → AttemptOutcome),
    ∃ n, n ≤ dc.maxRetries ∧ send dc attempt = ⟨attempt n, n + 1, n⟩ ∧
      (∀ k, k < n → ∃ f, attempt k = .failed f ∧ f ≠ .status .invalidPin) ∧
      (n < dc.maxRetries → (∃ r, attempt n = .response r) ∨ attempt n = .failed (.status .invalidPin)) ∧
      ∀ own : Byte, ({ ownId := own } : DispatcherConfig).backoffMs = 100

/-- 60_exceptions.md R243, over the block's operations: with the reply frame of a remote addressed to HOST, an attempt
ends with what RSP.DEC answers for the reply's body. (That TIMEOUT comes only after every byte has been taken is the
model's choice of schedule: notes/assumptions/18.md.) -/
def Obligations.AttemptAnswersReplyBody : Prop :=
  ∀ (s : State) (own recipient sender : Byte) (cmd : Command) (replyBody : List Byte) (body : List Byte),
    s.cfg.wf = true → s.opBusy = false → s.rxState = .idle → s.rxIn = [] → replyBody.length ≤ 65535 →
    (∃ u, exec cmd.encodeOp s = .next u ∧ u.completions = s.completions ++ [.ok (.body body)]) →
    ∃ outcome t u, attempt own recipient cmd (encodedFrame s.cfg sender own replyBody) s = some (outcome, t) ∧
      t.opBusy = false ∧ t.rxIn = [] ∧ t.txOut = s.txOut ++ encodedFrame s.cfg own recipient body ∧
      exec (cmd.decodeOp replyBody) s = .next u ∧
      (∃ c, u.completions = s.completions ++ [c] ∧ responseOutcome c = some outcome)
end

