-- ==== Sys2Proof/Laws/Crc.lean ====
section
/-! SUPPORT. The CRC unit's shift register is linear over XOR, and its fold goes through a byte sequence in pieces. -/

namespace Sys2Proof.Machine

theorem crcShift_xor (k a b : Word) : crcShift k (a ^^^ b) = crcShift k a ^^^ crcShift k b := by
  unfold crcShift
  rw [BitVec.getLsbD_xor, BitVec.ushiftRight_xor_distrib]
  cases a.getLsbD 0 <;> cases b.getLsbD 0 <;> simp
  · simp [BitVec.xor_assoc]
  · rw [BitVec.xor_assoc, BitVec.xor_comm (b >>> 1), BitVec.xor_assoc]
  · have : a >>> 1 ^^^ k ^^^ (b >>> 1 ^^^ k) = a >>> 1 ^^^ b >>> 1 ^^^ (k ^^^ k) := by ac_rfl
    rw [this]; simp

theorem crcShifts_xor (k : Word) (n : Nat) (a b : Word) :
    crcShifts k n (a ^^^ b) = crcShifts k n a ^^^ crcShifts k n b := by
  induction n generalizing a b with
  | zero => rfl
  | succ n ih => simp [crcShifts, crcShift_xor, ih]

/-- A difference in the register and a difference in the byte add up. -/
theorem crcStep_xor (cfg : Config) (c d : Word) (b e : Byte) :
    crcStep cfg (c ^^^ d) (b ^^^ e) = crcStep cfg c b ^^^ crcShifts (crcConst cfg.crcAlgo) 8 (d ^^^ e.setWidth 16) := by
  unfold crcStep
  rw [← crcShifts_xor, BitVec.setWidth_xor]
  congr 1
  ac_rfl

@[simp] theorem crcFold_nil (cfg : Config) (c : Word) : crcFold cfg c [] = c := rfl

@[simp] theorem crcFold_cons (cfg : Config) (c : Word) (b : Byte) (bytes : List Byte) :
    crcFold cfg c (b :: bytes) = crcFold cfg (crcStep cfg c b) bytes := rfl

@[simp] theorem crcFold_append (cfg : Config) (c : Word) (xs ys : List Byte) :
    crcFold cfg c (xs ++ ys) = crcFold cfg (crcFold cfg c xs) ys := by
  simp [crcFold]

end Sys2Proof.Machine
end

