-- ==== Sys2Proof/Laws/Operands.lean ====
section
/-! SUPPORT. Byte order and flags: splitting and joining are inverse, a flags byte carries its fields. -/

namespace Sys2Proof

@[simp] theorem hiByte_joinBytes (hi lo : Byte) : hiByte (joinBytes hi lo) = hi := by
  ext i h
  have h1 : 8 + i < 16 := by omega
  simp [hiByte, joinBytes, h1, BitVec.getLsbD_eq_getElem h]

@[simp] theorem loByte_joinBytes (hi lo : Byte) : loByte (joinBytes hi lo) = lo := by
  ext i h
  have h2 : i < 16 := by omega
  simp [loByte, joinBytes, h, h2]

@[simp] theorem joinBytes_hiByte_loByte (v : Word) : joinBytes (hiByte v) (loByte v) = v := by
  ext i h
  simp only [joinBytes, hiByte, loByte, BitVec.getElem_or, BitVec.getElem_shiftLeft, BitVec.getElem_setWidth,
    BitVec.getLsbD_extractLsb']
  by_cases h8 : i < 8
  · simp [h8, BitVec.getLsbD_eq_getElem h]
  · have : 8 + (i - 8) = i := by omega
    simp [h8, this, BitVec.getLsbD_eq_getElem h]
    intro; omega

/-- A body of at most MAX_BODY bytes has its own length in LEN (30_encoding.md R71). -/
theorem lenField_toNat (body : List Byte) (h : body.length ≤ maxBody) : (lenField body).toNat = body.length := by
  have : maxBody = 65535 := rfl
  simp only [lenField, BitVec.toNat_ofNat]
  omega

theorem lenField_eq_zero (body : List Byte) (h : body.length ≤ maxBody) : lenField body = 0#16 ↔ body = [] := by
  rw [← BitVec.toNat_inj, lenField_toNat body h]
  simp

theorem frameLayout_length (c : Config) (sender receiver : Byte) (body : List Byte) (checksum : Word)
    (endByte : Byte) : (frameLayout c sender receiver body checksum endByte).length = 8 + body.length := by
  simp [frameLayout]; omega

theorem flagField_flagBit (pos other : Fin 8) (b : Bool) : flagField other (flagBit pos b) = (b && decide (pos = other)) := by
  revert pos other b; decide

theorem flagField_or (pos : Fin 8) (x y : Byte) : flagField pos (x ||| y) = (flagField pos x || flagField pos y) := by
  simp [flagField]

/-- Writing back a field that was read keeps its bit and clears the others. -/
theorem flagBit_flagField (pos : Fin 8) (flags : Byte) : flagBit pos (flagField pos flags) = flags &&& flagBit pos true := by
  ext i h
  have hbit : ∀ (p : Fin 8) (b : Bool), (flagBit p b)[i] = (b && decide (p.val = i)) := by
    intro p b
    have := flagField_flagBit p ⟨i, h⟩ b
    simpa [flagField, Fin.ext_iff, BitVec.getLsbD_eq_getElem h] using this
  rw [BitVec.getElem_and, hbit, hbit]
  by_cases hp : pos.val = i
  · subst hp; simp [flagField]
  · simp [hp]

/-- The fields read from a flags byte write it back but for the bits no field owns (30_encoding.md R80). -/
theorem readFlags_flagField (c : Config) (flags : Byte) :
    readFlags c (flagField c.readPullupBit flags) (flagField c.readPulldownBit flags) (flagField c.readAnalogBit flags)
      (flagField c.readInvertBit flags) (flagField c.readDirectBit flags) = flags &&& readFlags c true true true true true := by
  simp only [readFlags, flagBit_flagField, BitVec.and_or_distrib_left]

theorem writeFlags_flagField (c : Config) (flags : Byte) :
    writeFlags c (flagField c.writeAnalogBit flags) (flagField c.writeInvertBit flags) = flags &&& writeFlags c true true := by
  simp only [writeFlags, flagBit_flagField, BitVec.and_or_distrib_left]

theorem i2cFlags_flagField (c : Config) (flags : Byte) :
    i2cFlags c (flagField c.i2cStopBit flags) = flags &&& i2cFlags c true := by
  simp only [i2cFlags, flagBit_flagField]

end Sys2Proof
end

