-- ==== Sys2Proof/Laws/Decode.lean ====
section
/-! SUPPORT. The parts of the decoder on the parts of an encoding. -/

namespace Sys2Proof

@[simp] theorem readBool_boolByte (b : Bool) : readBool (boolByte b) = .ok b := by cases b <;> decide

/-- CMD.ENC takes its command from KIND (43_command_encoder.md R180). -/
theorem decodeOp_cmdEnc (args : List Byte) :
    decodeOp (opByte 5 0 :: args) = decodeCmdEncRead args ∧ decodeOp (opByte 5 1 :: args) = decodeCmdEncWrite args ∧
      decodeOp (opByte 5 2 :: args) = decodeCmdEncToggle args ∧
      decodeOp (opByte 5 3 :: args) = decodeCmdEncI2cWrite args := ⟨rfl, rfl, rfl, rfl⟩

/-- RSP.DEC takes the expected kind from KIND (44_response_decoder.md R200). -/
theorem decodeOp_rspDec (body : List Byte) :
    decodeOp (opByte 6 0 :: body) = .ok (.rspDecRead body) ∧ decodeOp (opByte 6 1 :: body) = .ok (.rspDecWrite body) ∧
      decodeOp (opByte 6 2 :: body) = .ok (.rspDecToggle body) ∧
      decodeOp (opByte 6 3 :: body) = .ok (.rspDecI2cWrite body) := ⟨rfl, rfl, rfl, rfl⟩

/-- KIND is ignored by the operations that have none (30_encoding.md R88). -/
theorem decodeOpcode_ignores_kind (opc : Fin 5) (kind : Fin 4) (args : List Byte) :
    decodeOpcode (opByte opc kind) args = decodeOpcode (opByte opc 0) args := by
  have h : opcOf (opByte opc kind) = opc ∧ opcOf (opByte opc 0) = opc := by revert opc kind; decide
  unfold decodeOpcode
  rw [h.1, h.2]
  revert opc
  intro opc _
  match opc with
  | 0 => rfl
  | 1 => rfl
  | 2 => rfl
  | 3 => rfl
  | 4 => rfl

end Sys2Proof
end

