-- ==== Sys2Proof/Laws/Memory.lean ====
section
/-! SUPPORT. RX_BODY: a read after a write, the canonical form, and reading a range. -/

namespace Sys2Proof.Machine

@[simp] theorem memRead_memWrite_same (m : Memory) (a : Nat) (b : Byte) : memRead (memWrite m a b) a = some b := by
  induction m with
  | nil => simp [memWrite, memRead]
  | cons cell rest ih =>
    obtain ⟨k, v⟩ := cell
    by_cases h1 : a < k
    · simp [memWrite, memRead, h1]
    · by_cases h2 : a = k
      · simp [memWrite, memRead, h2]
      · simp [memWrite, memRead, h1, h2, ih]

theorem memRead_memWrite_other (m : Memory) {a a' : Nat} (b : Byte) (h : a' ≠ a) :
    memRead (memWrite m a b) a' = memRead m a' := by
  induction m with
  | nil => simp [memWrite, memRead, h]
  | cons cell rest ih =>
    obtain ⟨k, v⟩ := cell
    by_cases h1 : a < k
    · simp [memWrite, memRead, h1, h]
    · by_cases h2 : a = k
      · subst h2; simp [memWrite, memRead, h]
      · by_cases h3 : a' = k <;> simp [memWrite, memRead, h1, h2, h3, ih]

theorem mem_memWrite (m : Memory) (a : Nat) (b : Byte) (cell : Host.Cell) (h : cell ∈ memWrite m a b) :
    cell = (a, b) ∨ cell ∈ m := by
  induction m with
  | nil => simpa [memWrite] using h
  | cons head rest ih =>
    obtain ⟨k, v⟩ := head
    simp only [memWrite] at h
    split at h
    · rcases List.mem_cons.1 h with h | h
      · exact .inl h
      · exact .inr h
    · split at h
      · rcases List.mem_cons.1 h with h | h
        · exact .inl h
        · exact .inr (List.mem_cons_of_mem _ h)
      · rcases List.mem_cons.1 h with h | h
        · exact .inr (h ▸ List.mem_cons_self)
        · rcases ih h with h | h
          · exact .inl h
          · exact .inr (List.mem_cons_of_mem _ h)

theorem memRising_memWrite (m : Memory) (a : Nat) (b : Byte) (h : memRising m = true) :
    memRising (memWrite m a b) = true := by
  induction m with
  | nil => simp [memWrite, memRising]
  | cons head rest ih =>
    obtain ⟨k, v⟩ := head
    simp only [memRising, Bool.and_eq_true, List.all_eq_true, decide_eq_true_eq] at h
    by_cases h1 : a < k
    · simp only [memWrite, h1, if_true, memRising, Bool.and_eq_true, List.all_eq_true, decide_eq_true_eq]
      refine ⟨fun cell hc => ?_, h⟩
      rcases List.mem_cons.1 hc with rfl | hc
      · exact h1
      · exact h1.trans (h.1 cell hc)
    · by_cases h2 : a = k
      · simp only [memWrite, h2, Nat.lt_irrefl, if_false, if_true, memRising, Bool.and_eq_true, List.all_eq_true,
          decide_eq_true_eq]
        exact h
      · simp only [memWrite, h1, h2, if_false, memRising, Bool.and_eq_true, List.all_eq_true, decide_eq_true_eq]
        refine ⟨fun cell hc => ?_, ih h.2⟩
        rcases mem_memWrite rest a b cell hc with rfl | hc
        · simp only; omega
        · exact h.1 cell hc

/-- Every write inside RX_BODY keeps the canonical form. -/
theorem memWrite_wf (m : Memory) (a : Nat) (b : Byte) (h : m.wf = true) (ha : a < maxBody) :
    (Memory.wf (memWrite m a b)) = true := by
  simp only [Memory.wf, Bool.and_eq_true, List.all_eq_true, decide_eq_true_eq] at h ⊢
  refine ⟨memRising_memWrite m a b h.1, fun cell hc => ?_⟩
  rcases mem_memWrite m a b cell hc with rfl | hc
  · exact ha
  · exact h.2 cell hc

@[simp] theorem memory_nil_wf : Memory.wf [] = true := rfl

/-- The next cell in order goes to the end. -/
theorem memWrite_append (m : Memory) (a : Nat) (b : Byte) (h : ∀ cell ∈ m, cell.1 < a) :
    memWrite m a b = m ++ [(a, b)] := by
  induction m with
  | nil => rfl
  | cons head rest ih =>
    obtain ⟨k, v⟩ := head
    have hk : k < a := h (k, v) List.mem_cons_self
    have h1 : ¬ a < k := by omega
    have h2 : a ≠ k := by omega
    simp [memWrite, h1, h2, ih (fun cell hc => h cell (List.mem_cons_of_mem _ hc))]

/-- A range reads as `bytes` exactly when each of its cells does. -/
theorem memReadRange_ok (m : Memory) (start n : Nat) (bytes : List Byte) :
    memReadRange m start n = .ok bytes ↔
      bytes.length = n ∧ ∀ i (h : i < bytes.length), memRead m (start + i) = some bytes[i] := by
  induction n generalizing start bytes with
  | zero => cases bytes <;> simp [memReadRange]
  | succ n ih =>
    cases hr : memRead m start with
    | none =>
      simp only [memReadRange, hr, reduceCtorEq, false_iff, not_and]
      intro hl h
      have := h 0 (by omega)
      simp [hr] at this
    | some b =>
      cases bytes with
      | nil => simp [memReadRange, hr]; split <;> simp
      | cons x xs =>
        simp only [memReadRange, hr]
        constructor
        · intro h
          split at h
          · rename_i ys hy
            cases h
            obtain ⟨hl, hrest⟩ := (ih (start + 1) xs).1 hy
            refine ⟨by simp [hl], fun i hi => ?_⟩
            cases i with
            | zero => simpa using hr
            | succ i =>
              have := hrest i (by simpa using hi)
              simpa [Nat.add_assoc, Nat.add_comm 1 i] using this
          · simp at h
        · rintro ⟨hl, h⟩
          have hb : b = x := by
            have h0 := h 0 (by simp)
            rw [Nat.add_zero, hr] at h0
            exact Option.some.inj h0
          have : memReadRange m (start + 1) n = .ok xs := by
            refine (ih (start + 1) xs).2 ⟨by simpa using hl, fun i hi => ?_⟩
            have := h (i + 1) (by simpa using hi)
            simpa [Nat.add_assoc, Nat.add_comm 1 i] using this
          simp [this, hb]

end Sys2Proof.Machine
end

