-- ==== Sys2Proof/Laws/State.lean ====
section
/-! SUPPORT. One lemma per field per update of the state. The eight RX registers that an update makes unspecified
have no lemma: nothing may rest on their free values (notes/assumptions/10.md). -/

namespace Sys2Proof.Machine

@[simp] theorem State.complete_eq (s : State) (payload : Payload) : s.complete payload = s.deliver (.ok payload) := rfl
@[simp] theorem State.raise_eq (s : State) (status : Status) : s.raise status = s.deliver (.err status) := rfl

@[simp] theorem State.deliver_cfg (s : State) (c : Completion) : (s.deliver c).cfg = s.cfg := rfl
@[simp] theorem State.deliver_crcReg (s : State) (c : Completion) : (s.deliver c).crcReg = s.crcReg := rfl
@[simp] theorem State.deliver_opBusy (s : State) (c : Completion) : (s.deliver c).opBusy = s.opBusy := rfl
@[simp] theorem State.deliver_rxState (s : State) (c : Completion) : (s.deliver c).rxState = s.rxState := rfl
@[simp] theorem State.deliver_rxOwnId (s : State) (c : Completion) : (s.deliver c).rxOwnId = s.rxOwnId := rfl
@[simp] theorem State.deliver_rxSender (s : State) (c : Completion) : (s.deliver c).rxSender = s.rxSender := rfl
@[simp] theorem State.deliver_rxReceiver (s : State) (c : Completion) : (s.deliver c).rxReceiver = s.rxReceiver := rfl
@[simp] theorem State.deliver_rxLenHi (s : State) (c : Completion) : (s.deliver c).rxLenHi = s.rxLenHi := rfl
@[simp] theorem State.deliver_rxLen (s : State) (c : Completion) : (s.deliver c).rxLen = s.rxLen := rfl
@[simp] theorem State.deliver_rxCount (s : State) (c : Completion) : (s.deliver c).rxCount = s.rxCount := rfl
@[simp] theorem State.deliver_rxBody (s : State) (c : Completion) : (s.deliver c).rxBody = s.rxBody := rfl
@[simp] theorem State.deliver_rxChkHi (s : State) (c : Completion) : (s.deliver c).rxChkHi = s.rxChkHi := rfl
@[simp] theorem State.deliver_rxChk (s : State) (c : Completion) : (s.deliver c).rxChk = s.rxChk := rfl
@[simp] theorem State.deliver_rxIn (s : State) (c : Completion) : (s.deliver c).rxIn = s.rxIn := rfl
@[simp] theorem State.deliver_txOut (s : State) (c : Completion) : (s.deliver c).txOut = s.txOut := rfl
@[simp] theorem State.deliver_completions (s : State) (c : Completion) : (s.deliver c).completions = s.completions ++ [c] := rfl
@[simp] theorem State.deliver_issues (s : State) (c : Completion) : (s.deliver c).issues = s.issues := rfl
@[simp] theorem State.deliver_agenda (s : State) (c : Completion) : (s.deliver c).agenda = s.agenda := rfl
@[simp] theorem State.deliver_freeIndex (s : State) (c : Completion) : (s.deliver c).freeIndex = s.freeIndex := rfl

@[simp] theorem State.emit_cfg (s : State) (bytes : List Byte) : (s.emit bytes).cfg = s.cfg := rfl
@[simp] theorem State.emit_crcReg (s : State) (bytes : List Byte) : (s.emit bytes).crcReg = s.crcReg := rfl
@[simp] theorem State.emit_opBusy (s : State) (bytes : List Byte) : (s.emit bytes).opBusy = s.opBusy := rfl
@[simp] theorem State.emit_rxState (s : State) (bytes : List Byte) : (s.emit bytes).rxState = s.rxState := rfl
@[simp] theorem State.emit_rxOwnId (s : State) (bytes : List Byte) : (s.emit bytes).rxOwnId = s.rxOwnId := rfl
@[simp] theorem State.emit_rxSender (s : State) (bytes : List Byte) : (s.emit bytes).rxSender = s.rxSender := rfl
@[simp] theorem State.emit_rxReceiver (s : State) (bytes : List Byte) : (s.emit bytes).rxReceiver = s.rxReceiver := rfl
@[simp] theorem State.emit_rxLenHi (s : State) (bytes : List Byte) : (s.emit bytes).rxLenHi = s.rxLenHi := rfl
@[simp] theorem State.emit_rxLen (s : State) (bytes : List Byte) : (s.emit bytes).rxLen = s.rxLen := rfl
@[simp] theorem State.emit_rxCount (s : State) (bytes : List Byte) : (s.emit bytes).rxCount = s.rxCount := rfl
@[simp] theorem State.emit_rxBody (s : State) (bytes : List Byte) : (s.emit bytes).rxBody = s.rxBody := rfl
@[simp] theorem State.emit_rxChkHi (s : State) (bytes : List Byte) : (s.emit bytes).rxChkHi = s.rxChkHi := rfl
@[simp] theorem State.emit_rxChk (s : State) (bytes : List Byte) : (s.emit bytes).rxChk = s.rxChk := rfl
@[simp] theorem State.emit_rxIn (s : State) (bytes : List Byte) : (s.emit bytes).rxIn = s.rxIn := rfl
@[simp] theorem State.emit_txOut (s : State) (bytes : List Byte) : (s.emit bytes).txOut = s.txOut ++ bytes := rfl
@[simp] theorem State.emit_completions (s : State) (bytes : List Byte) : (s.emit bytes).completions = s.completions := rfl
@[simp] theorem State.emit_issues (s : State) (bytes : List Byte) : (s.emit bytes).issues = s.issues := rfl
@[simp] theorem State.emit_agenda (s : State) (bytes : List Byte) : (s.emit bytes).agenda = s.agenda := rfl
@[simp] theorem State.emit_freeIndex (s : State) (bytes : List Byte) : (s.emit bytes).freeIndex = s.freeIndex := rfl

@[simp] theorem State.receive_cfg (s : State) (bytes : List Byte) : (s.receive bytes).cfg = s.cfg := rfl
@[simp] theorem State.receive_crcReg (s : State) (bytes : List Byte) : (s.receive bytes).crcReg = s.crcReg := rfl
@[simp] theorem State.receive_opBusy (s : State) (bytes : List Byte) : (s.receive bytes).opBusy = s.opBusy := rfl
@[simp] theorem State.receive_rxState (s : State) (bytes : List Byte) : (s.receive bytes).rxState = s.rxState := rfl
@[simp] theorem State.receive_rxOwnId (s : State) (bytes : List Byte) : (s.receive bytes).rxOwnId = s.rxOwnId := rfl
@[simp] theorem State.receive_rxSender (s : State) (bytes : List Byte) : (s.receive bytes).rxSender = s.rxSender := rfl
@[simp] theorem State.receive_rxReceiver (s : State) (bytes : List Byte) : (s.receive bytes).rxReceiver = s.rxReceiver := rfl
@[simp] theorem State.receive_rxLenHi (s : State) (bytes : List Byte) : (s.receive bytes).rxLenHi = s.rxLenHi := rfl
@[simp] theorem State.receive_rxLen (s : State) (bytes : List Byte) : (s.receive bytes).rxLen = s.rxLen := rfl
@[simp] theorem State.receive_rxCount (s : State) (bytes : List Byte) : (s.receive bytes).rxCount = s.rxCount := rfl
@[simp] theorem State.receive_rxBody (s : State) (bytes : List Byte) : (s.receive bytes).rxBody = s.rxBody := rfl
@[simp] theorem State.receive_rxChkHi (s : State) (bytes : List Byte) : (s.receive bytes).rxChkHi = s.rxChkHi := rfl
@[simp] theorem State.receive_rxChk (s : State) (bytes : List Byte) : (s.receive bytes).rxChk = s.rxChk := rfl
@[simp] theorem State.receive_rxIn (s : State) (bytes : List Byte) : (s.receive bytes).rxIn = s.rxIn ++ bytes := rfl
@[simp] theorem State.receive_txOut (s : State) (bytes : List Byte) : (s.receive bytes).txOut = s.txOut := rfl
@[simp] theorem State.receive_completions (s : State) (bytes : List Byte) : (s.receive bytes).completions = s.completions := rfl
@[simp] theorem State.receive_issues (s : State) (bytes : List Byte) : (s.receive bytes).issues = s.issues := rfl
@[simp] theorem State.receive_agenda (s : State) (bytes : List Byte) : (s.receive bytes).agenda = s.agenda := rfl
@[simp] theorem State.receive_freeIndex (s : State) (bytes : List Byte) : (s.receive bytes).freeIndex = s.freeIndex := rfl

@[simp] theorem State.drainTx_cfg (s : State) (n : Nat) : (s.drainTx n).cfg = s.cfg := rfl
@[simp] theorem State.drainTx_crcReg (s : State) (n : Nat) : (s.drainTx n).crcReg = s.crcReg := rfl
@[simp] theorem State.drainTx_opBusy (s : State) (n : Nat) : (s.drainTx n).opBusy = s.opBusy := rfl
@[simp] theorem State.drainTx_rxState (s : State) (n : Nat) : (s.drainTx n).rxState = s.rxState := rfl
@[simp] theorem State.drainTx_rxOwnId (s : State) (n : Nat) : (s.drainTx n).rxOwnId = s.rxOwnId := rfl
@[simp] theorem State.drainTx_rxSender (s : State) (n : Nat) : (s.drainTx n).rxSender = s.rxSender := rfl
@[simp] theorem State.drainTx_rxReceiver (s : State) (n : Nat) : (s.drainTx n).rxReceiver = s.rxReceiver := rfl
@[simp] theorem State.drainTx_rxLenHi (s : State) (n : Nat) : (s.drainTx n).rxLenHi = s.rxLenHi := rfl
@[simp] theorem State.drainTx_rxLen (s : State) (n : Nat) : (s.drainTx n).rxLen = s.rxLen := rfl
@[simp] theorem State.drainTx_rxCount (s : State) (n : Nat) : (s.drainTx n).rxCount = s.rxCount := rfl
@[simp] theorem State.drainTx_rxBody (s : State) (n : Nat) : (s.drainTx n).rxBody = s.rxBody := rfl
@[simp] theorem State.drainTx_rxChkHi (s : State) (n : Nat) : (s.drainTx n).rxChkHi = s.rxChkHi := rfl
@[simp] theorem State.drainTx_rxChk (s : State) (n : Nat) : (s.drainTx n).rxChk = s.rxChk := rfl
@[simp] theorem State.drainTx_rxIn (s : State) (n : Nat) : (s.drainTx n).rxIn = s.rxIn := rfl
@[simp] theorem State.drainTx_txOut (s : State) (n : Nat) : (s.drainTx n).txOut = s.txOut.drop n := rfl
@[simp] theorem State.drainTx_completions (s : State) (n : Nat) : (s.drainTx n).completions = s.completions := rfl
@[simp] theorem State.drainTx_issues (s : State) (n : Nat) : (s.drainTx n).issues = s.issues := rfl
@[simp] theorem State.drainTx_agenda (s : State) (n : Nat) : (s.drainTx n).agenda = s.agenda := rfl
@[simp] theorem State.drainTx_freeIndex (s : State) (n : Nat) : (s.drainTx n).freeIndex = s.freeIndex := rfl

@[simp] theorem State.beginDecode_cfg (s : State) (ownId : Byte) : (s.beginDecode ownId).cfg = s.cfg := rfl
@[simp] theorem State.beginDecode_crcReg (s : State) (ownId : Byte) : (s.beginDecode ownId).crcReg = s.crcReg := rfl
@[simp] theorem State.beginDecode_opBusy (s : State) (ownId : Byte) : (s.beginDecode ownId).opBusy = true := rfl
@[simp] theorem State.beginDecode_rxState (s : State) (ownId : Byte) : (s.beginDecode ownId).rxState = .awaitStart := rfl
@[simp] theorem State.beginDecode_rxOwnId (s : State) (ownId : Byte) : (s.beginDecode ownId).rxOwnId = ownId := rfl
@[simp] theorem State.beginDecode_rxSender (s : State) (ownId : Byte) : (s.beginDecode ownId).rxSender = s.rxSender := rfl
@[simp] theorem State.beginDecode_rxReceiver (s : State) (ownId : Byte) : (s.beginDecode ownId).rxReceiver = s.rxReceiver := rfl
@[simp] theorem State.beginDecode_rxLenHi (s : State) (ownId : Byte) : (s.beginDecode ownId).rxLenHi = s.rxLenHi := rfl
@[simp] theorem State.beginDecode_rxLen (s : State) (ownId : Byte) : (s.beginDecode ownId).rxLen = s.rxLen := rfl
@[simp] theorem State.beginDecode_rxCount (s : State) (ownId : Byte) : (s.beginDecode ownId).rxCount = s.rxCount := rfl
@[simp] theorem State.beginDecode_rxBody (s : State) (ownId : Byte) : (s.beginDecode ownId).rxBody = s.rxBody := rfl
@[simp] theorem State.beginDecode_rxChkHi (s : State) (ownId : Byte) : (s.beginDecode ownId).rxChkHi = s.rxChkHi := rfl
@[simp] theorem State.beginDecode_rxChk (s : State) (ownId : Byte) : (s.beginDecode ownId).rxChk = s.rxChk := rfl
@[simp] theorem State.beginDecode_rxIn (s : State) (ownId : Byte) : (s.beginDecode ownId).rxIn = s.rxIn := rfl
@[simp] theorem State.beginDecode_txOut (s : State) (ownId : Byte) : (s.beginDecode ownId).txOut = s.txOut := rfl
@[simp] theorem State.beginDecode_completions (s : State) (ownId : Byte) : (s.beginDecode ownId).completions = s.completions := rfl
@[simp] theorem State.beginDecode_issues (s : State) (ownId : Byte) : (s.beginDecode ownId).issues = s.issues := rfl
@[simp] theorem State.beginDecode_agenda (s : State) (ownId : Byte) : (s.beginDecode ownId).agenda = s.agenda := rfl
@[simp] theorem State.beginDecode_freeIndex (s : State) (ownId : Byte) : (s.beginDecode ownId).freeIndex = s.freeIndex := rfl

@[simp] theorem State.unspecifyRx_cfg (s : State) : s.unspecifyRx.cfg = s.cfg := rfl
@[simp] theorem State.unspecifyRx_crcReg (s : State) : s.unspecifyRx.crcReg = s.crcReg := rfl
@[simp] theorem State.unspecifyRx_opBusy (s : State) : s.unspecifyRx.opBusy = s.opBusy := rfl
@[simp] theorem State.unspecifyRx_rxState (s : State) : s.unspecifyRx.rxState = s.rxState := rfl
@[simp] theorem State.unspecifyRx_rxBody (s : State) : s.unspecifyRx.rxBody = [] := rfl
@[simp] theorem State.unspecifyRx_rxIn (s : State) : s.unspecifyRx.rxIn = s.rxIn := rfl
@[simp] theorem State.unspecifyRx_txOut (s : State) : s.unspecifyRx.txOut = s.txOut := rfl
@[simp] theorem State.unspecifyRx_completions (s : State) : s.unspecifyRx.completions = s.completions := rfl
@[simp] theorem State.unspecifyRx_issues (s : State) : s.unspecifyRx.issues = s.issues := rfl
@[simp] theorem State.unspecifyRx_agenda (s : State) : s.unspecifyRx.agenda = s.agenda := rfl
@[simp] theorem State.unspecifyRx_freeIndex (s : State) : s.unspecifyRx.freeIndex = s.freeIndex + 1 := rfl

@[simp] theorem State.endDecode_cfg (s : State) : s.endDecode.cfg = s.cfg := rfl
@[simp] theorem State.endDecode_crcReg (s : State) : s.endDecode.crcReg = s.crcReg := rfl
@[simp] theorem State.endDecode_opBusy (s : State) : s.endDecode.opBusy = false := rfl
@[simp] theorem State.endDecode_rxState (s : State) : s.endDecode.rxState = .idle := rfl
@[simp] theorem State.endDecode_rxBody (s : State) : s.endDecode.rxBody = [] := rfl
@[simp] theorem State.endDecode_rxIn (s : State) : s.endDecode.rxIn = s.rxIn := rfl
@[simp] theorem State.endDecode_txOut (s : State) : s.endDecode.txOut = s.txOut := rfl
@[simp] theorem State.endDecode_completions (s : State) : s.endDecode.completions = s.completions := rfl
@[simp] theorem State.endDecode_issues (s : State) : s.endDecode.issues = s.issues := rfl
@[simp] theorem State.endDecode_agenda (s : State) : s.endDecode.agenda = s.agenda := rfl
@[simp] theorem State.endDecode_freeIndex (s : State) : s.endDecode.freeIndex = s.freeIndex + 1 := rfl

@[simp] theorem State.resetBlock_cfg (s : State) : s.resetBlock.cfg = s.cfg := rfl
@[simp] theorem State.resetBlock_crcReg (s : State) : s.resetBlock.crcReg = s.cfg.crcInit := rfl
@[simp] theorem State.resetBlock_opBusy (s : State) : s.resetBlock.opBusy = false := rfl
@[simp] theorem State.resetBlock_rxState (s : State) : s.resetBlock.rxState = .idle := rfl
@[simp] theorem State.resetBlock_rxBody (s : State) : s.resetBlock.rxBody = [] := rfl
@[simp] theorem State.resetBlock_rxIn (s : State) : s.resetBlock.rxIn = if s.cfg.flushOnReset then [] else s.rxIn := rfl
@[simp] theorem State.resetBlock_txOut (s : State) : s.resetBlock.txOut = if s.cfg.flushOnReset then [] else s.txOut := rfl
@[simp] theorem State.resetBlock_completions (s : State) : s.resetBlock.completions = s.completions := rfl
@[simp] theorem State.resetBlock_issues (s : State) : s.resetBlock.issues = s.issues := rfl
@[simp] theorem State.resetBlock_agenda (s : State) : s.resetBlock.agenda = s.agenda := rfl
@[simp] theorem State.resetBlock_freeIndex (s : State) : s.resetBlock.freeIndex = s.freeIndex + 1 := rfl

end Sys2Proof.Machine
end

