-- ==== Sys2Proof/Laws/Ops.lean ====
section
/-! SUPPORT. What each shared operation, each instruction and each step can do, said once: later proofs cite these
lemmas and do not unfold the definitions again. -/

namespace Sys2Proof.Machine

/-! ### Accepting an operation -/

theorem State.accept_free {s : State} (f : State → State) (h : s.opBusy = false) : s.accept f = .next (f s) := by
  simp [State.accept, h]

theorem State.accept_held {s : State} (f : State → State) (h : s.opBusy = true) : s.accept f = .next s := by
  simp [State.accept, h]

theorem State.accept_cases {s t : State} {f : State → State} (h : s.accept f = .next t) :
    (s.opBusy = true ∧ t = s) ∨ (s.opBusy = false ∧ t = f s) := by
  cases hb : s.opBusy
  · rw [State.accept_free f hb] at h; cases h; exact .inr ⟨rfl, rfl⟩
  · rw [State.accept_held f hb] at h; cases h; exact .inl ⟨rfl, rfl⟩

/-! ### Instructions -/

/-- The effects an accepted instruction can have. -/
inductive Effect (i : Instr) (s : State) : State → Prop where
  | crc (w : Word) (p : Payload) (hi : i = .crcClear ∨ ∃ b, i = .crcUpdate b) (hp : ∀ q, p ≠ .packet q) :
      Effect i s ({ s with crcReg := w }.deliver (.ok p))
  | answer (c : Completion)
      (hc : ∀ e, c = .err e → (∀ k, e ≠ .clientError k)) (hp : ∀ p, c ≠ .ok (.packet p)) :
      Effect i s (s.deliver c)
  | emitted (bytes : List Byte) (hi : ∃ sender receiver body, i = .frameEnc sender receiver body) :
      Effect i s ((s.emit bytes).deliver (.ok (.frame bytes)))
  | decode (ownId : Byte) (hi : i = .frameDec ownId) : Effect i s (s.beginDecode ownId)

theorem matchesShape_iff {body : List Byte} {typeByte : Byte} {length : Nat} :
    matchesShape body typeByte length = true ↔ body.length = length ∧ body.head? = some typeByte := by
  unfold matchesShape
  rw [Bool.and_eq_true]
  exact ⟨fun h => ⟨of_decide_eq_true h.1, of_decide_eq_true h.2⟩, fun h => ⟨decide_eq_true h.1, decide_eq_true h.2⟩⟩

theorem decodeAnswer_ok (cfg : Config) (kind : Kind) (body : List Byte) :
    (∀ e, decodeAnswer cfg kind body = .err e → (∀ k, e ≠ .clientError k)) ∧
      ∀ p, decodeAnswer cfg kind body ≠ .ok (.packet p) := by
  unfold decodeAnswer errorResponse
  split
  · simp
  · split
    · split <;> simp
    · simp

theorem i2cWriteAnswer_ok (cfg : Config) (address : Byte) (data : List Byte) (stop : Bool) :
    (∀ e, i2cWriteAnswer cfg address data stop = .err e → (∀ k, e ≠ .clientError k)) ∧
      ∀ p, i2cWriteAnswer cfg address data stop ≠ .ok (.packet p) := by
  unfold i2cWriteAnswer
  split <;> simp

/-- What an accepted instruction of HOST does to the state, all of them side by side. -/
def hostEffect : Instr → State → State
  | .crcClear, s => { s with crcReg := s.cfg.crcInit }.complete .none
  | .crcUpdate b, s => { s with crcReg := crcStep s.cfg s.crcReg b }.complete (.crc (crcStep s.cfg s.crcReg b))
  | .crcRead, s => s.complete (.crc (s.crcReg ^^^ s.cfg.crcXorOut))
  | .frameEnc sender receiver body, s =>
    if body.length > maxBody then s.raise (.frameBodyTooLong body.length)
    else (s.emit (encodedFrame s.cfg sender receiver body)).complete (.frame (encodedFrame s.cfg sender receiver body))
  | .frameDec ownId, s => s.beginDecode ownId
  | .cmdEncRead pin pullup pulldown analog invert direct, s
  | .reqRead pin pullup pulldown analog invert direct, s =>
    s.complete (.body (readBody s.cfg pin pullup pulldown analog invert direct))
  | .cmdEncWrite pin value analog invert, s
  | .reqWrite pin value analog invert, s => s.complete (.body (writeBody s.cfg pin value analog invert))
  | .cmdEncToggle pin, s
  | .reqToggle pin, s => s.complete (.body (toggleBody s.cfg pin))
  | .cmdEncI2cWrite address data stop, s
  | .reqI2cWrite address data stop, s => s.deliver (i2cWriteAnswer s.cfg address data stop)
  | .rspDecRead body, s => s.deliver (decodeAnswer s.cfg .read body)
  | .rspDecWrite body, s => s.deliver (decodeAnswer s.cfg .write body)
  | .rspDecToggle body, s => s.deliver (decodeAnswer s.cfg .toggle body)
  | .rspDecI2cWrite body, s => s.deliver (decodeAnswer s.cfg .i2cWrite body)
  | .reservedOpc7, s => s.raise (.illegalOp 7#4)
  | .reservedOpcHigh low, s => s.raise (.illegalOp (1#1 ++ low))
  | .rspRead value, s =>
    s.deliver (decodeAnswer s.cfg .read [s.cfg.responseType .read, hiByte value, loByte value])
  | .rspWrite, s => s.deliver (decodeAnswer s.cfg .write [s.cfg.responseType .write])
  | .rspToggle newValue, s => s.deliver (decodeAnswer s.cfg .toggle [s.cfg.responseType .toggle, newValue])
  | .rspI2cWrite code, s => s.deliver (decodeAnswer s.cfg .i2cWrite [s.cfg.responseType .i2cWrite, code])
  | .rspError code, s => s.raise (errorResponse code)
  | .sdspFrame _ _ _ _ _, s => s

/-- The meaning of every instruction of HOST: its effect, when the block accepts it. -/
theorem exec_eq {i : Instr} (s : State) (hi : fromHost i = true) : exec i s = s.accept (hostEffect i) := by
  cases i
  case sdspFrame => cases hi
  all_goals rfl

/-- An instruction of HOST that is not held has its effect. -/
theorem exec_free {i : Instr} {s : State} (hi : fromHost i = true) (hb : s.opBusy = false) :
    exec i s = .next (hostEffect i s) := by
  rw [exec_eq s hi, State.accept_free _ hb]

/-- An instruction of HOST is held while OP_BUSY = 1 (10_state.md R22). -/
theorem exec_held {i : Instr} {s : State} (hi : fromHost i = true) (hb : s.opBusy = true) : exec i s = .next s := by
  rw [exec_eq s hi, State.accept_held _ hb]

theorem hostEffect_effect {i : Instr} (s : State) (hi : fromHost i = true) : Effect i s (hostEffect i s) := by
  cases i
  case sdspFrame => cases hi
  case crcClear => exact .crc _ _ (.inl rfl) (by simp)
  case crcUpdate b => exact .crc _ _ (.inr ⟨b, rfl⟩) (by simp)
  case frameDec ownId => exact .decode ownId rfl
  case frameEnc sender receiver body =>
    simp only [hostEffect]
    split
    · exact .answer _ (by simp) (by simp)
    · exact .emitted _ ⟨_, _, _, rfl⟩
  case cmdEncI2cWrite => exact .answer _ (i2cWriteAnswer_ok ..).1 (i2cWriteAnswer_ok ..).2
  case reqI2cWrite => exact .answer _ (i2cWriteAnswer_ok ..).1 (i2cWriteAnswer_ok ..).2
  case rspError code =>
    refine .answer _ (fun e he k => ?_) (by simp)
    simp only [errorResponse] at he
    split at he <;> cases he <;> simp
  case rspDecRead => exact .answer _ (decodeAnswer_ok ..).1 (decodeAnswer_ok ..).2
  case rspDecWrite => exact .answer _ (decodeAnswer_ok ..).1 (decodeAnswer_ok ..).2
  case rspDecToggle => exact .answer _ (decodeAnswer_ok ..).1 (decodeAnswer_ok ..).2
  case rspDecI2cWrite => exact .answer _ (decodeAnswer_ok ..).1 (decodeAnswer_ok ..).2
  case rspRead => exact .answer _ (decodeAnswer_ok ..).1 (decodeAnswer_ok ..).2
  case rspWrite => exact .answer _ (decodeAnswer_ok ..).1 (decodeAnswer_ok ..).2
  case rspToggle => exact .answer _ (decodeAnswer_ok ..).1 (decodeAnswer_ok ..).2
  case rspI2cWrite => exact .answer _ (decodeAnswer_ok ..).1 (decodeAnswer_ok ..).2
  all_goals exact .answer _ (by simp) (by simp)

/-- What an instruction of HOST leaves alone. -/
theorem Effect.frame {i : Instr} {s t : State} (h : Effect i s t) :
    t.cfg = s.cfg ∧ t.rxIn = s.rxIn ∧ t.issues = s.issues ∧ t.agenda = s.agenda ∧ t.rxBody = s.rxBody := by
  cases h <;> simp [State.beginDecode]

/-- Everything an instruction can do: it is held, it has one of the effects, or it is a frame that RX_SOURCE
delivers. -/
theorem exec_cases {i : Instr} {s t : State} (h : exec i s = .next t) :
    (fromHost i = true ∧ s.opBusy = true ∧ t = s) ∨ (fromHost i = true ∧ s.opBusy = false ∧ Effect i s t) ∨
      (fromHost i = false ∧ ∃ bytes, t = s.receive bytes) := by
  cases hi : fromHost i
  · cases i
    case sdspFrame => cases h; exact .inr (.inr ⟨rfl, _, rfl⟩)
    all_goals cases hi
  · cases hb : s.opBusy
    · rw [exec_free hi hb] at h; cases h; exact .inr (.inl ⟨rfl, rfl, hostEffect_effect s hi⟩)
    · rw [exec_held hi hb] at h; cases h; exact .inl ⟨rfl, rfl, rfl⟩

/-- No instruction faults and none is refused. -/
theorem exec_next (i : Instr) (s : State) : ∃ t, exec i s = .next t := by
  cases hi : fromHost i
  · cases i
    case sdspFrame => exact ⟨_, rfl⟩
    all_goals cases hi
  · cases hb : s.opBusy
    · exact ⟨_, exec_free hi hb⟩
    · exact ⟨_, exec_held hi hb⟩

/-! ### The deframer -/

/-- What one byte can do: move on inside the frame, with no completion, or end the decode in AwaitEnd. -/
inductive ByteEffect (b : Byte) (s : State) : State → Prop where
  | awaitStart (h : s.rxState = .awaitStart) : ByteEffect b s (rxAwaitStart b s)
  | senderId (h : s.rxState = .senderId) : ByteEffect b s (rxSenderByte b s)
  | receiverId (h : s.rxState = .receiverId) : ByteEffect b s (rxReceiverByte b s)
  | lenHi (h : s.rxState = .lenHi) : ByteEffect b s (rxLenHiByte b s)
  | lenLo (h : s.rxState = .lenLo) : ByteEffect b s (rxLenLoByte b s)
  | body (h : s.rxState = .body) (hc : s.rxCount.toNat < maxBody) :
      ByteEffect b s { s with
        rxBody := memWrite s.rxBody s.rxCount.toNat b
        rxCount := s.rxCount + 1#16
        rxState := if s.rxCount + 1#16 = s.rxLen then .checksumHi else .body }
  | checksumHi (h : s.rxState = .checksumHi) : ByteEffect b s (rxChecksumHiByte b s)
  | checksumLo (h : s.rxState = .checksumLo) : ByteEffect b s (rxChecksumLoByte b s)
  | malformed (h : s.rxState = .awaitEnd) (hb : b ≠ s.cfg.pEnd) :
      ByteEffect b s (s.endDecode.deliver (.err (.malformedFrame b)))
  | ended (h : s.rxState = .awaitEnd) (hb : b = s.cfg.pEnd) (body : List Byte)
      (hr : memReadRange s.rxBody 0 s.rxLen.toNat = .ok body) :
      ByteEffect b s
        (s.endDecode.deliver (frameVerdict s.cfg s.rxOwnId s.rxSender s.rxReceiver body s.rxChk b))

theorem deframeByte_cases {b : Byte} {s t : State} (hs : s.rxState ≠ .idle) (h : deframeByte b s = .next t) :
    ByteEffect b s t := by
  unfold deframeByte at h
  split at h
  case h_1 hi => exact absurd hi hs
  case h_7 hi =>
    simp only [rxBodyByte] at h
    split at h
    · cases h; exact .body hi ‹_›
    · cases h
  case h_10 hi =>
    simp only [rxAwaitEnd] at h
    split at h
    · cases h; exact .malformed hi ‹_›
    · split at h
      · cases h
      · cases h; exact .ended hi (Classical.not_not.1 ‹_›) _ ‹_›
  case h_2 hi => cases h; exact .awaitStart hi
  case h_3 hi => cases h; exact .senderId hi
  case h_4 hi => cases h; exact .receiverId hi
  case h_5 hi => cases h; exact .lenHi hi
  case h_6 hi => cases h; exact .lenLo hi
  case h_8 hi => cases h; exact .checksumHi hi
  case h_9 hi => cases h; exact .checksumLo hi

theorem deframeStep_idle {s : State} (h : s.rxState = .idle) : deframeStep s = .next s := by
  simp [deframeStep, h]

theorem deframeStep_empty {s : State} (h : s.rxIn = []) : deframeStep s = .next s := by
  unfold deframeStep; split
  · rfl
  · rw [h]

theorem deframeStep_byte {s : State} {b : Byte} {rest : List Byte} (hs : s.rxState ≠ .idle) (h : s.rxIn = b :: rest) :
    deframeStep s = deframeByte b { s with rxIn := rest } := by
  simp [deframeStep, hs, h]

theorem deframeStep_cases {s t : State} (h : deframeStep s = .next t) :
    ((s.rxState = .idle ∨ s.rxIn = []) ∧ t = s) ∨
      ∃ b rest, s.rxState ≠ .idle ∧ s.rxIn = b :: rest ∧ ByteEffect b { s with rxIn := rest } t := by
  by_cases hs : s.rxState = .idle
  · rw [deframeStep_idle hs] at h; cases h; exact .inl ⟨.inl hs, rfl⟩
  · cases hr : s.rxIn with
    | nil => rw [deframeStep_empty hr] at h; cases h; exact .inl ⟨.inr rfl, rfl⟩
    | cons b rest =>
      rw [deframeStep_byte hs hr] at h
      exact .inr ⟨b, rest, hs, rfl, deframeByte_cases hs h⟩

/-- What a byte leaves alone, whatever the state. -/
theorem ByteEffect.frame {b : Byte} {s t : State} (h : ByteEffect b s t) :
    t.cfg = s.cfg ∧ t.crcReg = s.crcReg ∧ t.rxIn = s.rxIn ∧ t.txOut = s.txOut ∧ t.issues = s.issues ∧
      t.agenda = s.agenda := by
  cases h <;> simp [rxAwaitStart, rxSenderByte, rxReceiverByte, rxLenHiByte, rxLenLoByte, rxChecksumHiByte,
    rxChecksumLoByte]
  case awaitStart => split <;> simp

/-! ### Steps -/

theorem presentHead_cases {s t : State} (h : presentHead s = .next t) :
    t = s ∨ ∃ iss rest i, s.issues = iss :: rest ∧ held s iss = false ∧ decode s.cfg iss = .ok i ∧
      exec i { s with issues := rest } = .next t := by
  unfold presentHead at h
  split at h
  · cases h; exact .inl rfl
  · rename_i iss rest hi
    split at h
    · cases h; exact .inl rfl
    · rename_i hh
      split at h
      · cases h
      · rename_i i hd
        exact .inr ⟨iss, rest, i, hi, by simpa using hh, hd, h⟩

/-- Everything a move can do. -/
theorem runTurn_cases {turn : Turn} {s t : State} (h : runTurn turn s = .next t) :
    t = s ∨
      (∃ iss rest i, turn = .issue ∧ s.issues = iss :: rest ∧ held s iss = false ∧ decode s.cfg iss = .ok i ∧
        exec i { s with issues := rest } = .next t) ∨
      (∃ b rest, turn = .deframer ∧ s.rxState ≠ .idle ∧ s.rxIn = b :: rest ∧
        ByteEffect b { s with rxIn := rest } t) ∨
      (turn = .timer ∧ s.rxState ≠ .idle ∧ t = s.endDecode.deliver (.err .timeout)) ∨
      (∃ bytes, turn = .rxSource bytes ∧ t = s.receive bytes) ∨
      (∃ n, turn = .txSink n ∧ t = s.drainTx n) ∨ (turn = .reset ∧ t = s.resetBlock) := by
  cases turn with
  | issue =>
    rcases presentHead_cases h with h | ⟨iss, rest, i, h⟩
    · exact .inl h
    · exact .inr (.inl ⟨iss, rest, i, rfl, h⟩)
  | deframer =>
    rcases deframeStep_cases h with ⟨_, h⟩ | ⟨b, rest, h⟩
    · exact .inl h
    · exact .inr (.inr (.inl ⟨b, rest, rfl, h⟩))
  | timer =>
    simp only [runTurn, timeoutEvent] at h
    split at h
    · cases h; exact .inl rfl
    · cases h; exact .inr (.inr (.inr (.inl ⟨rfl, ‹_›, rfl⟩)))
  | rxSource bytes => cases h; simp
  | txSink n => cases h; simp
  | reset => cases h; simp

/-- Everything a step can do: the configuration is well-formed and one agent makes one move, the agenda's head or,
with an empty agenda, the default move. -/
theorem step_cases {s t : State} (h : step s = .next t) :
    s.cfg.wf = true ∧
      ((∃ turn rest, s.agenda = turn :: rest ∧ runTurn turn { s with agenda := rest } = .next t) ∨
        (s.agenda = [] ∧ runTurn (defaultTurn s) s = .next t)) := by
  unfold step at h
  split at h
  · rename_i hw
    refine ⟨hw, ?_⟩
    unfold advance at h
    split at h
    · exact .inl ⟨_, _, ‹_›, h⟩
    · exact .inr ⟨‹_›, h⟩
  · cases h

/-- The move a step makes, from the state whose agenda has it taken off. -/
theorem step_runTurn {s t : State} (h : step s = .next t) :
    ∃ turn s', s.cfg.wf = true ∧ (s' = s ∨ ∃ rest, s.agenda = turn :: rest ∧ s' = { s with agenda := rest }) ∧
      (s.agenda.head? = some turn ∨ s.agenda = [] ∧ turn = defaultTurn s) ∧ runTurn turn s' = .next t := by
  obtain ⟨hw, ⟨turn, rest, ha, hr⟩ | ⟨ha, hr⟩⟩ := step_cases h
  · exact ⟨turn, _, hw, .inr ⟨rest, ha, rfl⟩, .inl (by rw [ha]; rfl), hr⟩
  · exact ⟨defaultTurn s, s, hw, .inl rfl, .inr ⟨ha, rfl⟩, hr⟩

/-- The default move is HOST's or the deframer's. -/
theorem defaultTurn_cases (s : State) : defaultTurn s = .issue ∨ defaultTurn s = .deframer := by
  unfold defaultTurn
  split
  · exact .inr rfl
  · split
    · exact .inr rfl
    · exact .inl rfl

/-- Every move but HOST's and the deframer's comes from the agenda. -/
theorem head?_of_turn {s : State} {turn : Turn} (h : s.agenda.head? = some turn ∨ s.agenda = [] ∧ turn = defaultTurn s)
    (hi : turn ≠ .issue) (hd : turn ≠ .deframer) : s.agenda.head? = some turn := by
  rcases h with h | ⟨-, h⟩
  · exact h
  · rcases defaultTurn_cases s with hs | hs
    · exact absurd (h.trans hs) hi
    · exact absurd (h.trans hs) hd

theorem step_agenda {s : State} {turn : Turn} {rest : List Turn} (hw : s.cfg.wf = true) (h : s.agenda = turn :: rest) :
    step s = runTurn turn { s with agenda := rest } := by
  simp [step, hw, advance, h]

theorem step_default {s : State} (hw : s.cfg.wf = true) (h : s.agenda = []) : step s = runTurn (defaultTurn s) s := by
  simp [step, hw, advance, h]

end Sys2Proof.Machine
end

