-- ==== Sys2Proof/Laws/PerInstr.lean ====
section
/-! SUPPORT. Per instruction: an encoding begins with a byte of the instruction's row of spec/opcode_table.json, in the
row's format, under the reference configuration (30_encoding.md R88). -/

namespace Sys2Proof.Laws.RowMatch

/-- A row of the table: its format, its mask and its match. -/
structure Row where
  format : Port
  mask : Byte
  matchByte : Byte

/-- The row of each instruction. -/
def row : Instr → Row
  | .crcClear => ⟨.op, 0x3C#8, 0x00#8⟩
  | .crcUpdate _ => ⟨.op, 0x3C#8, 0x04#8⟩
  | .crcRead => ⟨.op, 0x3C#8, 0x08#8⟩
  | .frameEnc _ _ _ => ⟨.op, 0x3C#8, 0x0C#8⟩
  | .frameDec _ => ⟨.op, 0x3C#8, 0x10#8⟩
  | .cmdEncRead _ _ _ _ _ _ => ⟨.op, 0x3F#8, 0x14#8⟩
  | .cmdEncWrite _ _ _ _ => ⟨.op, 0x3F#8, 0x15#8⟩
  | .cmdEncToggle _ => ⟨.op, 0x3F#8, 0x16#8⟩
  | .cmdEncI2cWrite _ _ _ => ⟨.op, 0x3F#8, 0x17#8⟩
  | .rspDecRead _ => ⟨.op, 0x3F#8, 0x18#8⟩
  | .rspDecWrite _ => ⟨.op, 0x3F#8, 0x19#8⟩
  | .rspDecToggle _ => ⟨.op, 0x3F#8, 0x1A#8⟩
  | .rspDecI2cWrite _ => ⟨.op, 0x3F#8, 0x1B#8⟩
  | .reservedOpc7 => ⟨.op, 0x3C#8, 0x1C#8⟩
  | .reservedOpcHigh _ => ⟨.op, 0x20#8, 0x20#8⟩
  | .reqRead _ _ _ _ _ _ => ⟨.reqBody, 0xFF#8, 0x01#8⟩
  | .reqWrite _ _ _ _ => ⟨.reqBody, 0xFF#8, 0x02#8⟩
  | .reqToggle _ => ⟨.reqBody, 0xFF#8, 0x03#8⟩
  | .reqI2cWrite _ _ _ => ⟨.reqBody, 0xFF#8, 0x04#8⟩
  | .rspRead _ => ⟨.rspBody, 0xFF#8, 0x81#8⟩
  | .rspWrite => ⟨.rspBody, 0xFF#8, 0x82#8⟩
  | .rspToggle _ => ⟨.rspBody, 0xFF#8, 0x83#8⟩
  | .rspI2cWrite _ => ⟨.rspBody, 0xFF#8, 0x84#8⟩
  | .rspError _ => ⟨.rspBody, 0xFF#8, 0xFF#8⟩
  | .sdspFrame _ _ _ _ _ => ⟨.frame, 0xFF#8, 0x02#8⟩

def Statement (i : Instr) : Prop :=
  (encode Config.reference i).port = (row i).format ∧
    ∃ first rest, (encode Config.reference i).bytes = first :: rest ∧ first &&& (row i).mask = (row i).matchByte

theorem crcClear : Statement .crcClear := ⟨rfl, _, _, rfl, by simp only [row]; decide⟩

theorem crcUpdate (b : Byte) : Statement (.crcUpdate b) := ⟨rfl, _, _, rfl, by simp only [row]; decide⟩

theorem crcRead : Statement .crcRead := ⟨rfl, _, _, rfl, by simp only [row]; decide⟩

theorem frameEnc (sender receiver : Byte) (body : List Byte) : Statement (.frameEnc sender receiver body) :=
    ⟨rfl, _, _, rfl, by simp only [row]; decide⟩

theorem frameDec (ownId : Byte) : Statement (.frameDec ownId) := ⟨rfl, _, _, rfl, by simp only [row]; decide⟩

theorem cmdEncRead (pin : Byte) (pullup pulldown analog invert direct : Bool) :
    Statement (.cmdEncRead pin pullup pulldown analog invert direct) := ⟨rfl, _, _, rfl, by simp only [row]; decide⟩

theorem cmdEncWrite (pin : Byte) (value : Word) (analog invert : Bool) :
    Statement (.cmdEncWrite pin value analog invert) := ⟨rfl, _, _, rfl, by simp only [row]; decide⟩

theorem cmdEncToggle (pin : Byte) : Statement (.cmdEncToggle pin) := ⟨rfl, _, _, rfl, by simp only [row]; decide⟩

theorem cmdEncI2cWrite (address : Byte) (data : List Byte) (stop : Bool) :
    Statement (.cmdEncI2cWrite address data stop) := ⟨rfl, _, _, rfl, by simp only [row]; decide⟩

theorem rspDecRead (body : List Byte) : Statement (.rspDecRead body) := ⟨rfl, _, _, rfl, by simp only [row]; decide⟩

theorem rspDecWrite (body : List Byte) : Statement (.rspDecWrite body) := ⟨rfl, _, _, rfl, by simp only [row]; decide⟩

theorem rspDecToggle (body : List Byte) : Statement (.rspDecToggle body) :=
    ⟨rfl, _, _, rfl, by simp only [row]; decide⟩

theorem rspDecI2cWrite (body : List Byte) : Statement (.rspDecI2cWrite body) :=
    ⟨rfl, _, _, rfl, by simp only [row]; decide⟩

theorem reservedOpc7 : Statement .reservedOpc7 := ⟨rfl, _, _, rfl, by simp only [row]; decide⟩

theorem reservedOpcHigh (low : BitVec 3) : Statement (.reservedOpcHigh low) :=
    ⟨rfl, _, _, rfl, by revert low; simp only [row]; decide⟩

theorem reqRead (pin : Byte) (pullup pulldown analog invert direct : Bool) :
    Statement (.reqRead pin pullup pulldown analog invert direct) := ⟨rfl, _, _, rfl, by simp only [row]; decide⟩

theorem reqWrite (pin : Byte) (value : Word) (analog invert : Bool) : Statement (.reqWrite pin value analog invert) :=
    ⟨rfl, _, _, rfl, by simp only [row]; decide⟩

theorem reqToggle (pin : Byte) : Statement (.reqToggle pin) := ⟨rfl, _, _, rfl, by simp only [row]; decide⟩

theorem reqI2cWrite (address : Byte) (data : List Byte) (stop : Bool) : Statement (.reqI2cWrite address data stop) :=
    ⟨rfl, _, _, rfl, by simp only [row]; decide⟩

theorem rspRead (value : Word) : Statement (.rspRead value) := ⟨rfl, _, _, rfl, by simp only [row]; decide⟩

theorem rspWrite : Statement .rspWrite := ⟨rfl, _, _, rfl, by simp only [row]; decide⟩

theorem rspToggle (newValue : Byte) : Statement (.rspToggle newValue) := ⟨rfl, _, _, rfl, by simp only [row]; decide⟩

theorem rspI2cWrite (resultCode : Byte) : Statement (.rspI2cWrite resultCode) :=
    ⟨rfl, _, _, rfl, by simp only [row]; decide⟩

theorem rspError (errorCode : Byte) : Statement (.rspError errorCode) := ⟨rfl, _, _, rfl, by simp only [row]; decide⟩

theorem sdspFrame (sender receiver : Byte) (body : List Byte) (checksum : Word) (endByte : Byte) :
    Statement (.sdspFrame sender receiver body checksum endByte) := ⟨rfl, _, _, rfl, by simp only [row]; decide⟩

end Sys2Proof.Laws.RowMatch
end

