-- ==== Sys2Proof/Laws/Safety.lean ====
section
/-! SUPPORT. Runs in pieces, and what the invariant depends on. -/

namespace Sys2Proof.Machine

theorem run_succ_next {n : Nat} {s t : State} (h : step s = .next t) : run (n + 1) s = run n t := by
  simp [run, h]

theorem run_add {m n : Nat} {s t : State} (h : run m s = .next t) : run (m + n) s = run n t := by
  induction m generalizing s with
  | zero => simp only [run] at h; cases h; rw [Nat.zero_add]
  | succ m ih =>
    rw [Nat.succ_add]
    simp only [run] at h ⊢
    cases hs : step s with
    | next u => rw [hs] at h; exact ih h
    | fault f => simp [hs] at h
    | refused r => simp [hs] at h

theorem execAll_append {a b : List Instr} {s t : State} (h : execAll a s = .next t) :
    execAll (a ++ b) s = execAll b t := by
  induction a generalizing s with
  | nil => simp only [execAll] at h; cases h; rfl
  | cons i is ih =>
    simp only [execAll, List.cons_append] at h ⊢
    cases hs : exec i s with
    | next u => rw [hs] at h; exact ih h
    | fault f => simp [hs] at h
    | refused r => simp [hs] at h

/-- A deframer turn at the head of the agenda is a deframer step. -/
theorem step_deframer {s : State} {later : List Turn} (hw : s.cfg.wf = true) (h : s.agenda = .deframer :: later) :
    step s = deframeStep { s with agenda := later } := by
  rw [step_agenda hw h]; rfl

/-- The invariant reads these registers and no other field. -/
theorem State.Inv.of_same {s t : State} (h : s.Inv) (cfg : t.cfg = s.cfg) (opBusy : t.opBusy = s.opBusy)
    (rxState : t.rxState = s.rxState) (rxBody : t.rxBody = s.rxBody) (rxCount : t.rxCount = s.rxCount)
    (rxLen : t.rxLen = s.rxLen) (rxLenHi : t.rxLenHi = s.rxLenHi) (rxChk : t.rxChk = s.rxChk)
    (rxChkHi : t.rxChkHi = s.rxChkHi) : t.Inv := by
  obtain ⟨h1, h2, h3, h4, h5, h6, h7⟩ := h
  constructor <;> simp_all [State.cellsWritten]

end Sys2Proof.Machine
end

