-- ==== Sys2Proof/Laws/WellFormed.lean ====
section
/-! SUPPORT. What a well-formed configuration gives, one condition a lemma. -/

namespace Sys2Proof

theorem Config.wf_parts {c : Config} (h : c.wf = true) :
    c.requestTypesDistinct = true ∧ c.responseTypesDistinct = true ∧ c.requestTypesUntagged = true ∧
      c.requestsAreNoResponses = true ∧ c.flagPositionsDistinct = true ∧ c.i2cCodesDistinct = true := by
  simp only [Config.wf, Bool.and_eq_true] at h
  exact ⟨h.1.1.1.1.1, h.1.1.1.1.2, h.1.1.1.2, h.1.1.2, h.1.2, h.2⟩

theorem Config.wf_requestTypes {c : Config} (h : c.wf = true) :
    [c.typeRead, c.typeWrite, c.typeToggle, c.typeI2cWrite].Nodup :=
  of_decide_eq_true (Config.wf_parts h).1

theorem Config.wf_responseTypes {c : Config} (h : c.wf = true) :
    [c.typeRead ||| c.respTag, c.typeWrite ||| c.respTag, c.typeToggle ||| c.respTag, c.typeI2cWrite ||| c.respTag,
      c.typeError].Nodup :=
  of_decide_eq_true (Config.wf_parts h).2.1

theorem Config.wf_untagged {c : Config} (h : c.wf = true) (ht : c.respTag = 0x80#8) :
    ∀ t ∈ c.requestTypes, t.getLsbD 7 = false := by
  intro t hm
  have := (Config.wf_parts h).2.2.1
  simp only [Config.requestTypesUntagged, ht, bne_self_eq_false, Bool.false_or, List.all_eq_true] at this
  simpa only [Bool.not_eq_true'] using this t hm

theorem Config.wf_requestNoResponse {c : Config} (h : c.wf = true) :
    ∀ t ∈ c.requestTypes, t ∉ c.responseTypes := by
  intro t hm
  have := List.all_eq_true.1 (Config.wf_parts h).2.2.2.1 t hm
  simpa using this

theorem Config.wf_readFlags {c : Config} (h : c.wf = true) :
    [c.readPullupBit, c.readPulldownBit, c.readAnalogBit, c.readInvertBit, c.readDirectBit].Nodup := by
  have := (Config.wf_parts h).2.2.2.2.1
  simp only [Config.flagPositionsDistinct, Bool.and_eq_true] at this
  exact of_decide_eq_true this.1

theorem Config.wf_writeFlags {c : Config} (h : c.wf = true) : [c.writeAnalogBit, c.writeInvertBit].Nodup := by
  have := (Config.wf_parts h).2.2.2.2.1
  simp only [Config.flagPositionsDistinct, Bool.and_eq_true] at this
  exact of_decide_eq_true this.2

theorem Config.wf_i2cCodes {c : Config} (h : c.wf = true) :
    [c.i2cSuccess, c.i2cDataTooLong, nackOnAddressCode, c.i2cNackOnData, c.i2cOther, c.i2cTimeout].Nodup :=
  of_decide_eq_true (Config.wf_parts h).2.2.2.2.2

@[simp] theorem Config.reference_wf : Config.reference.wf = true := by decide

end Sys2Proof
end

