-- ==== Sys2Proof/Tests/Slice0.lean ====
section
/-! SUPPORT. Tests and witnesses. Expected values come from spec/: the opcode table (30_encoding.md R70, R75, R76, R86,
R88) and the vectors of 95_test_vectors.md, whose number each test names. -/

namespace Sys2Proof.Tests

open Sys2Proof.Machine

/-! ### Helpers -/

/-- The reference machine after reset, with bytes in RX_IN and the deframer in a state. -/
def receiving (rxState : RxState) (bytes : List Byte) : State :=
  { State.reset with rxState := rxState, opBusy := true, rxIn := bytes }

/-- The state an outcome gives. -/
def after : Host.Outcome State Fault Refusal → State
  | .next t => t
  | .fault _ => State.reset
  | .refused _ => State.reset

/-- What the reference machine answers an instruction right after reset. -/
def answer (i : Instr) : Option Completion := (after (exec i State.reset)).completions.getLast?

/-- Why an outcome is refused, if it is. -/
def refusal : Host.Outcome State Fault Refusal → Option Refusal
  | .next _ => none
  | .fault _ => none
  | .refused r => some r

/-- The frame F5 of L2.3. -/
def f5 : List Byte := [0x02#8, 0x12#8, 0x34#8, 0x00#8, 0x00#8, 0x6C#8, 0xFA#8, 0x03#8]

/-- F5 received but for END, own_id 34 (L2.3.1). -/
def f5AwaitingEnd : State :=
  { receiving .awaitEnd [0x03#8] with
    rxOwnId := 0x34#8, rxSender := 0x12#8, rxReceiver := 0x34#8, rxChkHi := 0x6C#8, rxChk := 0x6CFA#16 }

/-- A decode inside BODY: one of two body bytes has come, the second is next (L2.3.3). -/
def insideBody : State :=
  { receiving .body [0x01#8, 0x56#8, 0x75#8, 0x03#8] with
    rxOwnId := 0x07#8, rxSender := 0x01#8, rxReceiver := 0xFF#8, rxLen := 2#16, rxCount := 1#16
    rxBody := [(0, 0x83#8)] }

/-- One check of WellFormed refuses a configuration, and with it Config.wf and the step. -/
abbrev Refused (check : Config → Bool) (c : Config) : Prop :=
  check c = false ∧ c.wf = false ∧ refusal (step (State.resetWith c)) = some .illFormedConfig

/-! ### WellFormed: each check refuses an ill-formed term -/

/-- R8 (1). -/
theorem test_wf_refuses_equal_request_types :
    Refused Config.requestTypesDistinct { Config.reference with typeWrite := 0x01#8 } := by decide

/-- R8 (2). -/
theorem test_wf_refuses_error_type_that_is_a_response :
    Refused Config.responseTypesDistinct { Config.reference with typeError := 0x81#8 } := by decide

/-- R8 (3). -/
theorem test_wf_refuses_tagged_request_type :
    Refused Config.requestTypesUntagged { Config.reference with typeToggle := 0x85#8 } := by decide

/-- R185: with RESP_TAG = 0x10, 0x01 tags to 0x11. -/
theorem test_wf_refuses_request_type_that_is_a_response :
    Refused Config.requestsAreNoResponses { Config.reference with respTag := 0x10#8, typeI2cWrite := 0x11#8 } := by decide

theorem test_wf_refuses_shared_read_flag_position :
    Refused Config.flagPositionsDistinct { Config.reference with readAnalogBit := 0 } := by decide

theorem test_wf_refuses_shared_write_flag_position :
    Refused Config.flagPositionsDistinct { Config.reference with writeInvertBit := 0 } := by decide

theorem test_wf_refuses_shared_i2c_code :
    Refused Config.i2cCodesDistinct { Config.reference with i2cOther := 0x02#8 } := by decide

/-- R82: 65532 bytes of data fit a request body, 65533 do not. -/
theorem test_wf_refuses_too_much_i2c_data :
    (Instr.reqI2cWrite 0x00#8 (List.replicate 65533 0x00#8) false).wellFormed = false ∧
      (Instr.reqI2cWrite 0x00#8 (List.replicate 65532 0x00#8) false).wellFormed = true := by
  simp only [Instr.wellFormed, List.length_replicate, maxI2cData]
  decide

/-- R71: 65535 bytes of body fit a frame, 65536 do not. -/
theorem test_wf_refuses_too_long_frame_body :
    (Instr.sdspFrame 0x00#8 0x01#8 (List.replicate 65536 0x00#8) 0x0000#16 0x03#8).wellFormed = false ∧
      (Instr.sdspFrame 0x00#8 0x01#8 (List.replicate 65535 0x00#8) 0x0000#16 0x03#8).wellFormed = true := by
  simp only [Instr.wellFormed, List.length_replicate, maxBody]
  decide

/-! ### Decoding: every constructor by a word written out from the tables -/

theorem test_decode_crcClear : decode Config.reference ⟨.op, [0b00000000#8]⟩ = .ok .crcClear := by decide
theorem test_decode_crcUpdate : decode Config.reference ⟨.op, [0b00000100#8, 0x31#8]⟩ = .ok (.crcUpdate 0x31#8) := by
  decide
theorem test_decode_crcRead : decode Config.reference ⟨.op, [0b00001000#8]⟩ = .ok .crcRead := by decide
/-- The code 0x0C of L2, KIND bits ignored (R88). -/
theorem test_decode_frameEnc :
    decode Config.reference ⟨.op, [0b00001100#8, 0x12#8, 0x34#8, 0xAA#8]⟩ = .ok (.frameEnc 0x12#8 0x34#8 [0xAA#8]) ∧
      decode Config.reference ⟨.op, [0b00001111#8, 0x12#8, 0x34#8]⟩ = .ok (.frameEnc 0x12#8 0x34#8 []) := by decide
theorem test_decode_frameDec : decode Config.reference ⟨.op, [0b00010000#8, 0x34#8]⟩ = .ok (.frameDec 0x34#8) := by decide
theorem test_decode_cmdEncRead :
    decode Config.reference ⟨.op, [0b00010100#8, 14#8, 1#8, 0#8, 1#8, 0#8, 0#8]⟩ =
      .ok (.cmdEncRead 14#8 true false true false false) := by decide
theorem test_decode_cmdEncWrite :
    decode Config.reference ⟨.op, [0b00010101#8, 9#8, 0x02#8, 0x00#8, 1#8, 0#8]⟩ =
      .ok (.cmdEncWrite 9#8 0x0200#16 true false) := by decide
theorem test_decode_cmdEncToggle : decode Config.reference ⟨.op, [0b00010110#8, 13#8]⟩ = .ok (.cmdEncToggle 13#8) := by
  decide
theorem test_decode_cmdEncI2cWrite :
    decode Config.reference ⟨.op, [0b00010111#8, 0x50#8, 1#8, 0x01#8, 0x02#8]⟩ =
      .ok (.cmdEncI2cWrite 0x50#8 [0x01#8, 0x02#8] true) := by decide
theorem test_decode_rspDecRead :
    decode Config.reference ⟨.op, [0b00011000#8, 0x81#8, 0x12#8, 0x34#8]⟩ =
      .ok (.rspDecRead [0x81#8, 0x12#8, 0x34#8]) := by decide
theorem test_decode_rspDecWrite :
    decode Config.reference ⟨.op, [0b00011001#8, 0x82#8]⟩ = .ok (.rspDecWrite [0x82#8]) := by decide
theorem test_decode_rspDecToggle :
    decode Config.reference ⟨.op, [0b00011010#8, 0x83#8, 0xFF#8]⟩ = .ok (.rspDecToggle [0x83#8, 0xFF#8]) := by decide
theorem test_decode_rspDecI2cWrite :
    decode Config.reference ⟨.op, [0b00011011#8, 0x84#8, 0x02#8]⟩ = .ok (.rspDecI2cWrite [0x84#8, 0x02#8]) := by decide
theorem test_decode_reservedOpc7 : decode Config.reference ⟨.op, [0b00011100#8]⟩ = .ok .reservedOpc7 := by decide
/-- Both ends of the row: OPC 0x8 and 0xF. -/
theorem test_decode_reservedOpcHigh :
    decode Config.reference ⟨.op, [0b00100000#8]⟩ = .ok (.reservedOpcHigh 0#3) ∧
      decode Config.reference ⟨.op, [0b00111111#8]⟩ = .ok (.reservedOpcHigh 7#3) ∧
      decode Config.reference ⟨.op, [0b01000000#8]⟩ = .error (.notSixBits 0x40#8) := by decide
theorem test_decode_reqRead :
    decode Config.reference ⟨.reqBody, [0x01#8, 0x07#8, 0b00010000#8]⟩ =
      .ok (.reqRead 7#8 false false false false true) := by decide
theorem test_decode_reqWrite :
    decode Config.reference ⟨.reqBody, [0x02#8, 0x02#8, 0x01#8, 0xFF#8, 0b00000010#8]⟩ =
      .ok (.reqWrite 2#8 0x01FF#16 false true) := by decide
theorem test_decode_reqToggle : decode Config.reference ⟨.reqBody, [0x03#8, 0x0D#8]⟩ = .ok (.reqToggle 13#8) := by decide
theorem test_decode_reqI2cWrite :
    decode Config.reference ⟨.reqBody, [0x04#8, 0x80#8, 0b00000001#8, 0x02#8, 0x03#8]⟩ =
      .ok (.reqI2cWrite 0x80#8 [0x02#8, 0x03#8] true) := by decide
theorem test_decode_rspRead :
    decode Config.reference ⟨.rspBody, [0x81#8, 0x12#8, 0x34#8]⟩ = .ok (.rspRead 0x1234#16) := by decide
theorem test_decode_rspWrite : decode Config.reference ⟨.rspBody, [0x82#8]⟩ = .ok .rspWrite := by decide
theorem test_decode_rspToggle : decode Config.reference ⟨.rspBody, [0x83#8, 0xFF#8]⟩ = .ok (.rspToggle 0xFF#8) := by decide
theorem test_decode_rspI2cWrite : decode Config.reference ⟨.rspBody, [0x84#8, 0x02#8]⟩ = .ok (.rspI2cWrite 0x02#8) := by
  decide
theorem test_decode_rspError : decode Config.reference ⟨.rspBody, [0xFF#8, 0x07#8]⟩ = .ok (.rspError 0x07#8) := by decide
/-- The broadcast frame of L2.3.3. -/
theorem test_decode_sdspFrame :
    decode Config.reference
        ⟨.frame, [0x02#8, 0x01#8, 0xFF#8, 0x00#8, 0x02#8, 0x83#8, 0x01#8, 0x56#8, 0x75#8, 0x03#8]⟩ =
      .ok (.sdspFrame 0x01#8 0xFF#8 [0x83#8, 0x01#8] 0x5675#16 0x03#8) := by decide

/-- A request row is matched on its TYPE byte and length (R88); flag bits no field owns are never read (93 row 4). -/
theorem test_decode_unassigned_flag_bits :
    decode Config.reference ⟨.reqBody, [0x01#8, 0x07#8, 0x20#8]⟩ = .ok (.reqRead 7#8 false false false false false) ∧
      decode Config.reference ⟨.reqBody, [0x02#8, 0x05#8, 0x00#8, 0x01#8, 0xFE#8]⟩ = .ok (.reqWrite 5#8 1#16 false true) ∧
      decode Config.reference ⟨.reqBody, [0x04#8, 0x50#8, 0xFF#8, 0x01#8]⟩ = .ok (.reqI2cWrite 0x50#8 [0x01#8] true) := by
  decide

/-- R80 and R83(d): the bits no field owns, by the table of R80. -/
theorem test_clearUnassigned :
    clearUnassigned Config.reference [0x01#8, 0x07#8, 0xFF#8] = [0x01#8, 0x07#8, 0x1F#8] ∧
      clearUnassigned Config.reference [0x02#8, 0x05#8, 0x00#8, 0xFF#8, 0xFF#8] = [0x02#8, 0x05#8, 0x00#8, 0xFF#8, 0x03#8] ∧
      clearUnassigned Config.reference [0x03#8, 0xFF#8] = [0x03#8, 0xFF#8] ∧
      clearUnassigned Config.reference [0x04#8, 0x50#8, 0xFF#8, 0xFF#8] = [0x04#8, 0x50#8, 0x01#8, 0xFF#8] := by decide

/-- Bodies and frames that are none: unassigned TYPEs (R77), wrong lengths (R88). -/
theorem test_decode_rejects :
    decode Config.reference ⟨.reqBody, [0x05#8, 0x00#8]⟩ = .error (.unassignedType 0x05#8) ∧
      decode Config.reference ⟨.rspBody, [0x7E#8, 0x00#8, 0x00#8]⟩ = .error (.unassignedType 0x7E#8) ∧
      decode Config.reference ⟨.reqBody, [0x01#8, 0x07#8]⟩ = .error .wrongBodyLength ∧
      decode Config.reference ⟨.rspBody, [0x82#8, 0x00#8]⟩ = .error .wrongBodyLength ∧
      decode Config.reference ⟨.frame, [0x03#8]⟩ = .error (.notStart 0x03#8) ∧
      decode Config.reference ⟨.frame, f5 ++ [0x00#8]⟩ = .error .wrongFrameLength ∧
      decode Config.reference ⟨.op, [0x04#8]⟩ = .error .wrongOperands ∧
      decode Config.reference ⟨.op, []⟩ = .error .empty := by decide

/-- Rows of the opcode table as words. -/
theorem test_table_words :
    decodeTableWord 8 0x00 = some .crcClear ∧ decodeTableWord 8 0x0C = some (.frameEnc 0#8 0#8 []) ∧
      decodeTableWord 8 0x17 = some (.cmdEncI2cWrite 0#8 [] false) ∧ decodeTableWord 6 0x1B = some (.rspDecI2cWrite []) ∧
      decodeTableWord 8 0x20 = some (.reservedOpcHigh 0#3) ∧
      decodeTableWord 8 0x01 = some (.reqRead 0#8 false false false false false) ∧
      decodeTableWord 8 0x03 = some (.reqToggle 0#8) ∧ decodeTableWord 8 0x81 = some (.rspRead 0#16) ∧
      decodeTableWord 8 0x82 = some .rspWrite ∧ decodeTableWord 8 0xFF = some (.rspError 0#8) := by decide

/-- The next step runs the word that withFetchWord places. -/
theorem test_fetch_word_runs_next :
    step (State.reset.withFetchWord 8 0x08) = exec .crcRead State.reset ∧
      step (State.reset.withFetchWord 8 0x82) = exec .rspWrite State.reset := ⟨rfl, rfl⟩

/-! ### Instructions, on the vectors of 95_test_vectors.md -/

/-- L2.1.6: CRC.CLEAR after 0x1189. -/
theorem test_crcClear :
    (after (exec .crcClear { State.reset with crcReg := 0x1189#16 })).crcReg = 0x0000#16 := by decide

/-- L2.1.1: the third and the ninth byte. -/
theorem test_crcUpdate :
    (after (exec (.crcUpdate 0x33#8) { State.reset with crcReg := 0xBDEB#16 })).crcReg = 0x5A78#16 ∧
      (after (exec (.crcUpdate 0x39#8) { State.reset with crcReg := 0x8B19#16 })).completions = [.ok (.crc 0x2189#16)] := by
  decide +kernel

/-- L2.1.4, the RAW column. -/
theorem test_crcUpdate_raw :
    (after (exec (.crcUpdate 0xFF#8) (State.resetWith { Config.reference with crcAlgo := .raw }))).crcReg = 0x1284#16 := by
  decide +kernel

/-- L2.1.1, and the CRC_XOROUT row of L2.1.4. -/
theorem test_crcRead :
    (after (exec .crcRead { State.reset with crcReg := 0x2189#16 })).completions = [.ok (.crc 0x2189#16)] ∧
      crc16 { Config.reference with crcInit := 0xFFFF#16, crcXorOut := 0xFFFF#16 }
        [0x31#8, 0x32#8, 0x33#8, 0x34#8, 0x35#8, 0x36#8, 0x37#8, 0x38#8, 0x39#8] = 0x906E#16 := by decide +kernel

/-- L2.2: the L1.1 request. -/
theorem test_frameEnc :
    (after (exec (.frameEnc 0x00#8 0x01#8 [0x02#8, 0x05#8, 0x00#8, 0x01#8, 0x00#8]) State.reset)).txOut =
      [0x02#8, 0x00#8, 0x01#8, 0x00#8, 0x05#8, 0x02#8, 0x05#8, 0x00#8, 0x01#8, 0x00#8, 0xEE#8, 0xC0#8, 0x03#8] := by
  decide +kernel

/-- L2.2: START and END values inside a body. -/
theorem test_frameEnc_start_and_end_in_body :
    answer (.frameEnc 0xAB#8 0xCD#8 [0x02#8, 0x03#8, 0x02#8]) = some (.ok (.frame
      [0x02#8, 0xAB#8, 0xCD#8, 0x00#8, 0x03#8, 0x02#8, 0x03#8, 0x02#8, 0x21#8, 0x5E#8, 0x03#8])) := by decide +kernel

/-- R140: issued, no completion, RX_IN kept. -/
theorem test_frameDec :
    exec (.frameDec 0x34#8) { State.reset with rxIn := f5 } =
      .next { State.reset with rxIn := f5, rxOwnId := 0x34#8, rxState := .awaitStart, opBusy := true } := rfl

/-- L2.3.1: the END byte of F5. -/
theorem test_deframer_end :
    (after (deframeStep f5AwaitingEnd)).completions = [.ok (.packet ⟨0x12#8, 0x34#8, [], 0x6CFA#16⟩)] := by decide +kernel

/-- L2.3.14 (END before the checksum) and L2.3.15 (the checksum before the recipient). -/
theorem test_deframer_check_order :
    (after (deframeStep { f5AwaitingEnd with rxChk := 0x6CFB#16, rxIn := [0x00#8] })).completions =
        [.err (.malformedFrame 0x00#8)] ∧
      (after (deframeStep { f5AwaitingEnd with rxChk := 0x6CFB#16, rxOwnId := 0x35#8 })).completions =
        [.err (.checksumMismatch 0x6CFB#16 0x6CFA#16)] := by decide +kernel

/-- L2.3.2. -/
theorem test_deframer_recipient :
    (after (deframeStep { f5AwaitingEnd with rxOwnId := 0x35#8 })).completions = [.err (.recipientMismatch 0x34#8)] := by
  decide +kernel

/-- L2.3.8: TIMEOUT after four bytes of F5, a byte waiting. -/
theorem test_timeout :
    (timeoutEvent (receiving .lenLo [0x00#8])).completions = [.err .timeout] ∧
      (timeoutEvent (receiving .lenLo [0x00#8])).rxState = .idle ∧
      (timeoutEvent (receiving .lenLo [0x00#8])).rxIn = [0x00#8] := by decide

/-- L2.4. -/
theorem test_cmdEncRead :
    answer (.cmdEncRead 0#8 true true true true true) = some (.ok (.body [0x01#8, 0x00#8, 0x1F#8])) ∧
      answer (.cmdEncRead 7#8 false false false false true) = some (.ok (.body [0x01#8, 0x07#8, 0x10#8])) := by decide

/-- L2.4: a digital value is not cleared. -/
theorem test_cmdEncWrite :
    answer (.cmdEncWrite 2#8 0x01FF#16 false true) = some (.ok (.body [0x02#8, 0x02#8, 0x01#8, 0xFF#8, 0x02#8])) := by
  decide

/-- L2.4. -/
theorem test_cmdEncToggle : answer (.cmdEncToggle 13#8) = some (.ok (.body [0x03#8, 0x0D#8])) := by decide

/-- L2.4: empty data, and stop. -/
theorem test_cmdEncI2cWrite :
    answer (.cmdEncI2cWrite 0x7F#8 [] false) = some (.ok (.body [0x04#8, 0x7F#8, 0x00#8])) ∧
      answer (.cmdEncI2cWrite 0x80#8 [0x02#8, 0x03#8] true) =
        some (.ok (.body [0x04#8, 0x80#8, 0x01#8, 0x02#8, 0x03#8])) := by decide

/-- L2.4: one byte too many. -/
theorem test_cmdEncI2cWrite_too_long :
    answer (.cmdEncI2cWrite 0x00#8 (List.replicate 65533 0x00#8) false) = some (.err (.encBodyTooLong 65533)) := by
  have h : i2cWriteAnswer Config.reference 0x00#8 (List.replicate 65533 0x00#8) false = .err (.encBodyTooLong 65533) := by
    simp only [i2cWriteAnswer, List.length_replicate, maxI2cData]
    rfl
  show [i2cWriteAnswer Config.reference _ _ _].getLast? = _
  rw [h]
  rfl

/-- L2.5: an Error body, and an Error body that is too long. -/
theorem test_rspDecRead :
    answer (.rspDecRead [0x81#8, 0x12#8, 0x34#8]) = some (.ok (.response (.read 0x1234#16))) ∧
      answer (.rspDecRead [0xFF#8, 0x03#8, 0x00#8]) = some (.err (.responseMismatch .read 3 (some 0xFF#8))) := by decide

/-- L2.5: exact length, and the Error tier. -/
theorem test_rspDecWrite :
    answer (.rspDecWrite [0x82#8, 0x00#8]) = some (.err (.responseMismatch .write 2 (some 0x82#8))) ∧
      answer (.rspDecWrite [0xFF#8, 0x00#8]) = some (.err (.remoteError 0x00#8)) := by decide

/-- L2.5. -/
theorem test_rspDecToggle :
    answer (.rspDecToggle [0x83#8, 0xFF#8]) = some (.ok (.response (.toggle 0xFF#8))) ∧
      answer (.rspDecToggle [0x03#8, 0x01#8]) = some (.err (.responseMismatch .toggle 2 (some 0x03#8))) := by decide

/-- L2.5. -/
theorem test_rspDecI2cWrite :
    answer (.rspDecI2cWrite [0x84#8, 0x02#8]) = some (.ok (.response (.i2cWrite .nackOnAddress))) ∧
      answer (.rspDecI2cWrite [0x84#8, 0x06#8]) = some (.ok (.response (.i2cWrite (.unknown 0x06#8)))) := by decide

/-- L2.6. -/
theorem test_reservedOpc7 :
    exec .reservedOpc7 State.reset = .next { State.reset with completions := [.err (.illegalOp 0x7#4)] } := rfl

/-- R233: OPC 0x8 and 0xF. -/
theorem test_reservedOpcHigh :
    answer (.reservedOpcHigh 0#3) = some (.err (.illegalOp 0x8#4)) ∧
      answer (.reservedOpcHigh 7#3) = some (.err (.illegalOp 0xF#4)) := by decide

/-- L2.4, the bodies as rows of the table. -/
theorem test_request_rows :
    answer (.reqRead 14#8 true false true false false) = some (.ok (.body [0x01#8, 0x0E#8, 0x05#8])) ∧
      answer (.reqWrite 9#8 0x0200#16 true false) = some (.ok (.body [0x02#8, 0x09#8, 0x02#8, 0x00#8, 0x01#8])) ∧
      answer (.reqToggle 0#8) = some (.ok (.body [0x03#8, 0x00#8])) ∧
      answer (.reqI2cWrite 0x50#8 [0x01#8, 0x02#8] true) =
        some (.ok (.body [0x04#8, 0x50#8, 0x01#8, 0x01#8, 0x02#8])) := by decide

/-- L2.5, the bodies as rows of the table. -/
theorem test_response_rows :
    answer (.rspRead 0x03FF#16) = some (.ok (.response (.read 0x03FF#16))) ∧
      answer .rspWrite = some (.ok (.response .write)) ∧
      answer (.rspToggle 0x00#8) = some (.ok (.response (.toggle 0x00#8))) ∧
      answer (.rspI2cWrite 0x05#8) = some (.ok (.response (.i2cWrite .timeout))) ∧
      answer (.rspError 0x03#8) = some (.err .invalidPin) ∧
      answer (.rspError 0x07#8) = some (.err (.remoteError 0x07#8)) := by decide

/-- L2.2 and R33: the frame of the Write response arrives in RX_IN. -/
theorem test_sdspFrame :
    (after (exec (.sdspFrame 0x01#8 0x00#8 [0x82#8] 0x3782#16 0x03#8) (receiving .awaitStart []))).rxIn =
      [0x02#8, 0x01#8, 0x00#8, 0x00#8, 0x01#8, 0x82#8, 0x37#8, 0x82#8, 0x03#8] := by decide

/-- L2.6, reset during a decode: no completion, and the byte not yet taken stays. -/
theorem test_reset_during_decode :
    (receiving .receiverId [0x34#8]).resetBlock.completions = [] ∧
      (receiving .receiverId [0x34#8]).resetBlock.rxState = .idle ∧
      (receiving .receiverId [0x34#8]).resetBlock.opBusy = false ∧
      (receiving .receiverId [0x34#8]).resetBlock.rxIn = [0x34#8] := by decide

/-- L2.6, rows 1, 4, 5 and 7 of the retry loop. -/
theorem test_send :
    send ⟨0x00#8, 100, 2, 100⟩ (fun _ => .failed (.status .timeout)) = ⟨.failed (.status .timeout), 3, 2⟩ ∧
      send ⟨0x00#8, 100, 2, 100⟩ (fun _ => .failed (.status .invalidPin)) = ⟨.failed (.status .invalidPin), 1, 0⟩ ∧
      send ⟨0x00#8, 100, 2, 100⟩
          (fun k => if k = 0 then .failed (.status (.responseMismatch .write 0 none)) else .failed (.status .invalidPin)) =
        ⟨.failed (.status .invalidPin), 2, 1⟩ ∧
      send ⟨0x00#8, 100, 0, 100⟩ (fun _ => .failed (.status .timeout)) = ⟨.failed (.status .timeout), 1, 0⟩ := by decide

/-! ### Witnesses: a concrete state and operands that meet the hypotheses of each statement that has any -/

/-- A free machine that is not the reset state: bytes on both channels, a CRC in progress. -/
def busyLine : State :=
  { State.reset with crcReg := 0x2189#16, rxIn := f5, txOut := [0x03#8], completions := [.ok .none] }

/-- `opBusy = false`, the hypothesis of the statements about one operation, with the reference configuration that their
examples ask for: CrcClearLoadsCrcInit, CrcUpdateFoldsOneByte, CrcReadReturnsFinishedCrc, FrameDecIssues,
CmdEncReadBuildsBody, CmdEncWriteBuildsBody, CmdEncToggleBuildsBody, RspDecThreeTiers, ResponseRowsDecode,
ReservedOpcCompletesIllegalOp. -/
theorem witness_free_machine : busyLine.opBusy = false ∧ busyLine.cfg = Config.reference ∧ busyLine ≠ State.reset := by
  decide

theorem witness_CrcUpdateFoldsOneByte_raw :
    ({ Config.reference with crcAlgo := .raw } : Config).crcAlgo = .raw ∧ Config.reference.crcAlgo = .reflected := by decide

theorem witness_CrcOperationsComputeCrc16 :
    busyLine.opBusy = false ∧ (after (execAll (.crcClear :: [0x01#8].map Instr.crcUpdate ++ [.crcRead]) busyLine)).completions =
      [.ok .none, .ok .none, .ok (.crc 0x1189#16), .ok (.crc 0x1189#16)] := by decide +kernel

/-- Both ends of the length: an empty body and 65535 bytes. -/
theorem witness_FrameCrcCoversWholeFrame :
    ([] : List Byte).length ≤ 65535 ∧ (List.replicate 65535 0x00#8).length ≤ 65535 := by
  rw [List.length_replicate]; decide

/-- The first and the last offset that is no checksum byte. -/
theorem witness_SingleBitErrorChangesFrameCrc :
    8 ≤ f5.length ∧ (0 < f5.length ∧ 0 ≠ f5.length - 3 ∧ 0 ≠ f5.length - 2) ∧
      7 < f5.length ∧ 7 ≠ f5.length - 3 ∧ 7 ≠ f5.length - 2 := by decide

/-- The longest body that is framed and the shortest that is not. -/
theorem witness_FrameEncEmitsAndReturnsFrame :
    busyLine.opBusy = false ∧ (List.replicate 65535 0x00#8).length ≤ 65535 ∧
      65535 < (List.replicate 65536 0x00#8).length := by
  simp only [List.length_replicate]; decide

theorem witness_FrameFieldsAtTheirOffsets : ([0x82#8] : List Byte).length ≤ 65535 ∧ 0 < ([0x82#8] : List Byte).length := by
  decide

/-- A broadcast frame, decoded under another own_id, with a byte after it. -/
theorem witness_EncodedFrameDecodesToItsFields :
    let s : State := { State.reset with
      rxIn := [0x02#8, 0x01#8, 0xFF#8, 0x00#8, 0x02#8, 0x83#8, 0x01#8, 0x56#8, 0x75#8, 0x03#8, 0x55#8]
      agenda := List.replicate 10 .deframer ++ [.timer] }
    s.cfg.wf = true ∧ s.opBusy = false ∧ s.rxIn = encodedFrame s.cfg 0x01#8 0xFF#8 [0x83#8, 0x01#8] ++ [0x55#8] ∧
      s.agenda = List.replicate (8 + [0x83#8, 0x01#8].length) .deframer ++ [.timer] := by
  refine ⟨by decide, rfl, by decide +kernel, rfl⟩

theorem witness_DeframerStepTakesOneByte :
    (State.reset.rxState = .idle ∨ State.reset.rxIn = []) ∧
      ((receiving .senderId []).rxState = .idle ∨ (receiving .senderId []).rxIn = []) ∧
      (receiving .senderId f5).rxState ≠ .idle ∧ (receiving .senderId f5).rxIn = 0x02#8 :: f5.tail ∧
      deframeStep (receiving .senderId f5) = .next (after (deframeStep (receiving .senderId f5))) :=
  ⟨by decide, by decide, by decide, rfl, rfl⟩

/-- One state for each header state; P_START and another byte; LEN_LO = 0 after LEN_HI = 0. -/
theorem witness_DeframerHeaderBytes :
    ((receiving .awaitStart [0x02#8]).rxState = .awaitStart ∧ (receiving .awaitStart [0x02#8]).rxIn = 0x02#8 :: []) ∧
      ((receiving .awaitStart [0x55#8]).rxState = .awaitStart ∧ (receiving .awaitStart [0x55#8]).rxIn = 0x55#8 :: []) ∧
      ((receiving .senderId [0x12#8]).rxState = .senderId ∧ (receiving .senderId [0x12#8]).rxIn = 0x12#8 :: []) ∧
      ((receiving .receiverId [0xFF#8]).rxState = .receiverId ∧ (receiving .receiverId [0xFF#8]).rxIn = 0xFF#8 :: []) ∧
      ((receiving .lenHi [0x00#8]).rxState = .lenHi ∧ (receiving .lenHi [0x00#8]).rxIn = 0x00#8 :: []) ∧
      (receiving .lenLo [0x00#8]).rxState = .lenLo ∧ (receiving .lenLo [0x00#8]).rxIn = 0x00#8 :: [] := by decide

/-- The last body byte of L2.3.3, and the last address there is. -/
theorem witness_DeframerBodyByte :
    (insideBody.rxState = .body ∧ insideBody.rxIn = 0x01#8 :: [0x56#8, 0x75#8, 0x03#8] ∧ insideBody.rxCount.toNat < 65535) ∧
      ({ insideBody with rxCount := 65534#16 } : State).rxCount.toNat < 65535 := by decide

theorem witness_DeframerChecksumBytes :
    ((receiving .checksumHi [0x6C#8]).rxState = .checksumHi ∧ (receiving .checksumHi [0x6C#8]).rxIn = 0x6C#8 :: []) ∧
      (receiving .checksumLo [0xFA#8]).rxState = .checksumLo ∧ (receiving .checksumLo [0xFA#8]).rxIn = 0xFA#8 :: [] := by
  decide

/-- A body of one byte in RX_BODY, and one state for each of the four answers. -/
theorem witness_AwaitEndChecksInOrder :
    let s : State := { receiving .awaitEnd [0x03#8] with rxLen := 1#16, rxBody := [(0, 0x82#8)] }
    (s.rxState = .awaitEnd ∧ s.rxIn = 0x03#8 :: [] ∧ [0x82#8].length = s.rxLen.toNat ∧ memRead s.rxBody 0 = [0x82#8][0]?) ∧
      (0x00#8 ≠ f5AwaitingEnd.cfg.pEnd) ∧
      (0x03#8 = f5AwaitingEnd.cfg.pEnd ∧ frameCrc f5AwaitingEnd.cfg 0x12#8 0x34#8 [] ≠ 0x6CFB#16) ∧
      (frameCrc f5AwaitingEnd.cfg 0x12#8 0x34#8 [] = f5AwaitingEnd.rxChk ∧ f5AwaitingEnd.rxReceiver = f5AwaitingEnd.rxOwnId) ∧
      f5AwaitingEnd.rxReceiver ≠ 0x35#8 ∧ f5AwaitingEnd.rxReceiver ≠ 0xFF#8 := by
  refine ⟨⟨rfl, rfl, by decide, by decide⟩, by decide, by decide +kernel, by decide +kernel, by decide, by decide⟩

/-- The frame of L2.3.14: a bad checksum and a bad END byte. -/
theorem witness_DeframerReadsFrameByItsLength :
    let s : State := { receiving .awaitStart [0x02#8, 0x01#8, 0x00#8, 0x00#8, 0x01#8, 0x82#8, 0x36#8, 0x82#8, 0x00#8] with
      agenda := List.replicate 9 .deframer }
    s.cfg.wf = true ∧ s.rxState = .awaitStart ∧
      s.rxIn = frameLayout s.cfg 0x01#8 0x00#8 [0x82#8] 0x3682#16 0x00#8 ++ [] ∧
      s.agenda = List.replicate (8 + [0x82#8].length) .deframer ++ [] := by
  refine ⟨by decide, rfl, by decide, rfl⟩

/-- The noise of L2.3.4. -/
theorem witness_NoiseBeforeStartIsDiscarded :
    let s : State := { receiving .awaitStart ([0x55#8, 0x03#8, 0xAA#8] ++ f5) with agenda := List.replicate 3 .deframer ++ [.timer] }
    s.cfg.wf = true ∧ s.rxState = .awaitStart ∧ (∀ b ∈ [0x55#8, 0x03#8, 0xAA#8], b ≠ s.cfg.pStart) ∧
      s.rxIn = [0x55#8, 0x03#8, 0xAA#8] ++ f5 ∧
      s.agenda = List.replicate [0x55#8, 0x03#8, 0xAA#8].length .deframer ++ [.timer] := by
  refine ⟨by decide, rfl, by decide, rfl, rfl⟩

theorem witness_TimeoutEndsDecode :
    (({ insideBody with agenda := [.timer] } : State).cfg.wf = true ∧ insideBody.rxState ≠ .idle) ∧
      State.reset.cfg.wf = true ∧ State.reset.rxState = .idle := by decide

/-- The invariant holds in the middle of a body. -/
theorem witness_Inv_insideBody : insideBody.Inv where
  config := by decide
  busy := by decide
  cells := by decide
  counting := by decide
  counted := by decide
  lenHi := by decide
  chkHi := by decide

/-- The invariant holds before the END byte. -/
theorem witness_Inv_f5AwaitingEnd : f5AwaitingEnd.Inv where
  config := by decide
  busy := by decide
  cells := by decide
  counting := by decide
  counted := by decide
  lenHi := by decide
  chkHi := by decide

/-- DeliveredPacketInvariants, DecodeHasFiveOutcomes, CompletionsAreDeliveredOnce (fourth clause), StepKeepsInvariant: a
good state whose step delivers a packet. -/
theorem witness_step_delivers_packet :
    f5AwaitingEnd.Inv ∧ f5AwaitingEnd.opBusy = true ∧ f5AwaitingEnd.agenda.head? ≠ some .reset ∧
      ∃ t, step f5AwaitingEnd = .next t ∧
        t.completions = f5AwaitingEnd.completions ++ [.ok (.packet ⟨0x12#8, 0x34#8, [], 0x6CFA#16⟩)] ∧
        t.completions ≠ f5AwaitingEnd.completions := by
  refine ⟨witness_Inv_f5AwaitingEnd, rfl, by decide, _, rfl, by decide +kernel, by decide +kernel⟩

/-- One flipped bit at the boundary offsets of F5: 0; 1, 2, 5, 6; 7. -/
theorem witness_FlippedBitIsDetected :
    ∀ offset ∈ [0, 1, 2, 5, 6, 7],
      let s : State := { receiving .awaitStart (flipBit f5 offset 7) with rxOwnId := 0x34#8, agenda := List.replicate 8 .deframer }
      s.cfg.wf = true ∧ s.rxState = .awaitStart ∧ (0x34#8 = s.rxOwnId ∨ 0x34#8 = 0xFF#8) ∧
        s.rxIn = flipBit (encodedFrame s.cfg 0x12#8 0x34#8 []) offset 7 ++ [] ∧
        s.agenda = List.replicate (8 + ([] : List Byte).length) .deframer ++ [] := by
  have h : encodedFrame Config.reference 0x12#8 0x34#8 [] = f5 := by decide +kernel
  intro offset _
  refine ⟨(by decide : Config.reference.wf = true), rfl, .inl rfl, ?_, rfl⟩
  rw [List.append_nil]
  exact congrArg (fun frame => flipBit frame offset 7) h.symm

/-- Every position of a flags byte a field can lie in, and one no field owns. -/
theorem witness_FlagsBytesCarryTheirFields :
    Config.reference.wf = true ∧ (7 : Fin 8) ∉ [Config.reference.writeAnalogBit, Config.reference.writeInvertBit] ∧
      (7 : Fin 8) ≠ Config.reference.i2cStopBit := by decide

/-- CmdEncI2cWriteBuildsBody, RequestRowsCompleteWithTheirBody: the longest data and one byte more. -/
theorem witness_CmdEncI2cWriteBuildsBody :
    busyLine.opBusy = false ∧ (List.replicate 65532 0x00#8).length ≤ 65532 ∧
      65532 < (List.replicate 65533 0x00#8).length := by
  simp only [List.length_replicate]; decide

theorem witness_RequestsNeverLookLikeResponses :
    busyLine.cfg.wf = true ∧ ∃ t, exec (.cmdEncToggle 0x0D#8) busyLine = .next t ∧
      t.completions = busyLine.completions ++ [.ok (.body [0x03#8, 0x0D#8])] :=
  ⟨by decide, _, rfl, rfl⟩

theorem witness_RspDecDecodesItsShapes : busyLine.opBusy = false ∧ busyLine.cfg.responseTypesDistinct = true := by
  decide

/-- The lowest and the highest unlisted code. -/
theorem witness_I2cResultCodes : 0x06 ≤ (0x06#8).toNat ∧ 0x06 ≤ (0xFF#8).toNat := by decide

/-- A body that matches neither shape, and one that matches the Error shape. -/
theorem witness_MismatchExactlyWhenNeitherShape :
    (∃ t, exec (rspDecOf .write []) busyLine = .next t ∧
      t.completions = busyLine.completions ++ [.err (.responseMismatch .write 0 none)]) ∧
      ∃ t, exec (rspDecOf .write [0xFF#8, 0x03#8]) busyLine = .next t ∧
        t.completions = busyLine.completions ++ [.err .invalidPin] :=
  ⟨⟨_, rfl, by decide⟩, _, rfl, by decide⟩

theorem witness_AtMostOneShapeMatches :
    Config.reference.responseTypesDistinct = true ∧
      matchesShape [0x83#8, 0x01#8] (Config.reference.responseType .toggle) (responseLength .toggle) = true := by decide

theorem witness_BusyHoldsHost :
    let s : State := { insideBody with issues := [⟨.op, [0x08#8]⟩], agenda := [.issue, .deframer] }
    fromHost .crcRead = true ∧ s.cfg.wf = true ∧ s.opBusy = true ∧ s.issues = ⟨.op, [0x08#8]⟩ :: [] ∧
      (⟨.op, [0x08#8]⟩ : Issue).port ≠ .frame ∧ s.agenda = .issue :: [.deframer] := by
  refine ⟨by decide, by decide, rfl, rfl, by decide, rfl⟩

theorem witness_FrameRowArrivesInRxIn : ([0x82#8] : List Byte).length ≤ 65535 := by decide

theorem witness_ChannelMoves :
    busyLine.cfg.wf = true ∧ ({ busyLine with agenda := [.rxSource f5] } : State).agenda = .rxSource f5 :: [] ∧
      busyLine.txOut = [0x03#8] ++ [] ∧
      ({ busyLine with agenda := [.txSink 1] } : State).agenda = .txSink [0x03#8].length :: [] := by
  refine ⟨by decide, rfl, rfl, rfl⟩

/-- UntakenBytesAreKept, TxOutGrowsByWholeFrames, ParametersNeverChange, StepKeepsBodyMemoryCanonical: steps that take a
byte, append a frame, and store a body byte. -/
theorem witness_steps :
    (∃ t, step insideBody = .next t ∧ insideBody.rxBody.wf = true ∧ memRead t.rxBody 1 = some 0x01#8 ∧
      t.rxIn = [0x56#8, 0x75#8, 0x03#8]) ∧
      ∃ t, step { State.reset with issues := [⟨.op, [0x0C#8, 0x12#8, 0x34#8]⟩] } = .next t ∧ t.txOut = f5 := by
  refine ⟨⟨_, rfl, by decide, by decide, by decide⟩, _, rfl, by decide +kernel⟩

theorem witness_CrcRegChangedOnlyByCrcOperations :
    ∃ t, step { State.reset with issues := [⟨.op, [0x04#8, 0x01#8]⟩] } = .next t ∧ t.crcReg ≠ State.reset.crcReg := by
  refine ⟨_, rfl, by decide +kernel⟩

theorem witness_CompletionsAreDeliveredOnce :
    fromHost .crcClear = true ∧ (∀ own, Instr.crcClear ≠ .frameDec own) ∧ busyLine.opBusy = false := by
  refine ⟨by decide, fun own => by simp, by decide⟩

theorem witness_ErrorsArePrecise :
    ∃ t, exec .reservedOpc7 busyLine = .next t ∧ t.completions = busyLine.completions ++ [.err (.illegalOp 0x7#4)] :=
  ⟨_, rfl, rfl⟩

theorem witness_BlockNeverRaisesClientError : ∃ t, step busyLine = .next t := ⟨_, rfl⟩

/-- A reset during a decode, under both values of TRANSPORT_FLUSH_ON_RESET. -/
theorem witness_ResetAbandonsDecode :
    let s : State := { insideBody with agenda := [.reset] }
    let c : Config := { Config.reference with flushOnReset := true }
    (s.cfg.wf = true ∧ s.agenda = .reset :: [] ∧ s.cfg.flushOnReset = false) ∧ c.wf = true ∧ c.flushOnReset = true := by
  refine ⟨⟨by decide, rfl, rfl⟩, by decide, rfl⟩

/-- One configuration for each condition of R8. -/
theorem witness_IllFormedConfigurationRefused :
    ¬ [0x01#8, 0x01#8, 0x03#8, 0x04#8].Nodup ∧ ¬ [0x81#8, 0x82#8, 0x83#8, 0x84#8, 0x81#8].Nodup ∧
      (0x85#8).getLsbD 7 = true := by decide

theorem witness_ResetLeavesBlockReady : fromHost (.frameDec 0x34#8) = true ∧ fromHost .rspWrite = true := by decide

theorem witness_ResetMeetsInvariant : ({ Config.reference with crcInit := 0xFFFF#16 } : Config).wf = true := by decide

theorem witness_InvariantExcludesFaults : f5AwaitingEnd.Inv ∧ insideBody.Inv :=
  ⟨witness_Inv_f5AwaitingEnd, witness_Inv_insideBody⟩

/-- An operation on a free block, with an agenda and without one; a frame while the block is busy; a deframer turn. -/
theorem witness_StepRunsPresentedInstruction :
    let iss : Issue := ⟨.op, [0x08#8]⟩
    let frame : Issue := ⟨.frame, f5⟩
    let withAgenda : State := { busyLine with agenda := [.issue, .timer], issues := [iss] }
    let without : State := { busyLine with issues := [iss] }
    let busy : State := { insideBody with agenda := [.issue], issues := [frame] }
    let deframing : State := { insideBody with agenda := [.deframer] }
    (withAgenda.cfg.wf = true ∧ withAgenda.agenda = .issue :: [.timer] ∧ withAgenda.issues = iss :: [] ∧
      withAgenda.opBusy = false ∧ decode withAgenda.cfg iss = .ok .crcRead) ∧
    (without.cfg.wf = true ∧ without.agenda = [] ∧ without.issues = iss :: [] ∧ without.opBusy = false ∧
      decode without.cfg iss = .ok .crcRead) ∧
    (busy.cfg.wf = true ∧ busy.agenda = .issue :: [] ∧ busy.issues = frame :: [] ∧ busy.opBusy = true ∧
      frame.port = .frame ∧ decode busy.cfg frame = .ok (.sdspFrame 0x12#8 0x34#8 [] 0x6CFA#16 0x03#8)) ∧
    deframing.cfg.wf = true ∧ deframing.agenda = .deframer :: [] := by
  refine ⟨⟨by decide, rfl, rfl, rfl, by decide⟩, ⟨by decide, rfl, rfl, rfl, by decide⟩,
    ⟨by decide, rfl, rfl, rfl, rfl, by decide⟩, by decide, rfl⟩

theorem witness_DecodeOfEncode :
    Config.reference.wf = true ∧ (Instr.reqI2cWrite 0x50#8 [0x01#8, 0x02#8] true).wellFormed = true := by decide

/-- A response body, a frame, and a request body with a flag bit no field owns. -/
theorem witness_EncodeOfDecodeOnTheWire :
    Config.reference.wf = true ∧ decode Config.reference ⟨.rspBody, [0x82#8]⟩ = .ok .rspWrite ∧
      decode Config.reference ⟨.frame, f5⟩ = .ok (.sdspFrame 0x12#8 0x34#8 [] 0x6CFA#16 0x03#8) ∧
      decode Config.reference ⟨.reqBody, [0x01#8, 0x07#8, 0x30#8]⟩ = .ok (.reqRead 7#8 false false false false true) := by
  decide

/-- A transport that always times out, and one whose first attempt is answered with InvalidPin. -/
theorem witness_RetryCounts :
    (∀ k : Nat, (fun _ => .failed (.status .timeout) : Nat → AttemptOutcome) k = .failed (.status .timeout) ∧
      ∃ r, (Failure.status .timeout).errorKind = some (.codecError r)) ∧
      (fun _ => .failed (.status .invalidPin) : Nat → AttemptOutcome) 0 = .failed (.status .invalidPin) :=
  ⟨fun _ => ⟨rfl, .timeout, rfl⟩, rfl⟩

theorem witness_AttemptAnswersReplyBody :
    State.reset.cfg.wf = true ∧ State.reset.opBusy = false ∧ State.reset.rxState = .idle ∧ State.reset.rxIn = [] ∧
      ([0x82#8] : List Byte).length ≤ 65535 ∧
      ∃ u, exec (Command.write 5#8 1#16 false false).encodeOp State.reset = .next u ∧
        u.completions = State.reset.completions ++ [.ok (.body [0x02#8, 0x05#8, 0x00#8, 0x01#8, 0x00#8])] := by
  refine ⟨by decide, rfl, rfl, rfl, by decide, _, rfl, by decide⟩

end Sys2Proof.Tests
end

section
/-! The scope's statements: a configuration that fails R8 is refused, and a step runs what is presented. -/

namespace Sys2Proof.Machine

/-! ### Refused configurations (00_scope.md R8) -/

/-- A configuration that is not well-formed stops the machine at its first step. -/
theorem step_illFormedConfig {s : State} (h : s.cfg.wf ≠ true) : step s = .refused .illFormedConfig := if_neg h

/-- Settles O49: each condition of R8 follows from `Config.wf`, so a configuration that fails one is not well-formed. -/
theorem illFormedConfigurationRefused : Obligations.IllFormedConfigurationRefused := by
  refine ⟨fun s hfail => step_illFormedConfig fun hw => ?_, Config.reference_wf⟩
  rcases hfail with hreq | hrsp | ⟨htag, t, ht, hbit⟩
  · exact hreq (Config.wf_requestTypes hw)
  · exact hrsp (Config.wf_responseTypes hw)
  · have hclear : t.getLsbD 7 = false := Config.wf_untagged hw htag t ht
    exact Bool.false_ne_true (hclear.symm.trans hbit)

/-! ### Presenting an instruction (10_state.md R22) -/

/-- What waits is not held while the block is free, and a frame on the wire never is. -/
theorem held_eq_false_iff {s : State} {iss : Issue} : held s iss = false ↔ s.opBusy = false ∨ iss.port = .frame := by
  cases hb : s.opBusy <;> simp [held, hb]

/-- What is presented, not held and decodes to an instruction is taken from the queue and run. -/
theorem presentHead_decoded {s : State} {iss : Issue} {rest : List Issue} {i : Instr} (hq : s.issues = iss :: rest)
    (hh : held s iss = false) (hd : decode s.cfg iss = .ok i) : presentHead s = exec i { s with issues := rest } := by
  simp [presentHead, hq, hh, hd]

/-- The default move presents what waits and is not held. -/
theorem defaultTurn_issue {s : State} {iss : Issue} {rest : List Issue} (hq : s.issues = iss :: rest)
    (hh : held s iss = false) : defaultTurn s = .issue := by
  simp [defaultTurn, hq, hh]

/-- Settles O54, by the move that `step` makes: HOST's from the agenda, HOST's by default, or the deframer's. -/
theorem stepRunsPresentedInstruction : Obligations.StepRunsPresentedInstruction := by
  refine ⟨?fromAgenda, ?byDefault, fun s later hw ha => step_deframer hw ha⟩
  case fromAgenda =>
    intro s iss rest later i hw ha hq hfree hd
    calc step s = presentHead { s with agenda := later } := step_agenda hw ha
      _ = exec i { s with agenda := later, issues := rest } := presentHead_decoded hq (held_eq_false_iff.2 hfree) hd
  case byDefault =>
    intro s iss rest i hw ha hq hfree hd
    have hh : held s iss = false := held_eq_false_iff.2 hfree
    calc step s = runTurn (defaultTurn s) s := step_default hw ha
      _ = presentHead s := by rw [defaultTurn_issue hq hh]; rfl
      _ = exec i { s with issues := rest } := presentHead_decoded hq hh hd

end Sys2Proof.Machine
end

section
/-! The state's statements (10_state.md): the invariant of the block, the faults it excludes, and which moves change
CRC_REG, the parameters, the channels and HOST's queue. -/

namespace Sys2Proof.Machine

/-! ### The move of a step -/

/-- Under a well-formed configuration a step is one move, made from the state whose agenda has it taken off. -/
theorem step_eq_runTurn {s : State} (hw : s.cfg.wf = true) :
    ∃ turn later, (s.agenda.head? = some turn ∨ s.agenda = [] ∧ turn = defaultTurn s) ∧
      step s = runTurn turn { s with agenda := later } := by
  cases ha : s.agenda with
  | nil => exact ⟨defaultTurn s, s.agenda, .inr ⟨rfl, rfl⟩, step_default hw ha⟩
  | cons turn later => exact ⟨turn, later, .inl rfl, step_agenda hw ha⟩

/-! ### The invariant and the fields it does not read -/

theorem State.Inv.withAgenda {s : State} (h : s.Inv) (agenda : List Turn) : State.Inv { s with agenda := agenda } :=
  h.of_same rfl rfl rfl rfl rfl rfl rfl rfl rfl

theorem State.Inv.withIssues {s : State} (h : s.Inv) (issues : List Issue) : State.Inv { s with issues := issues } :=
  h.of_same rfl rfl rfl rfl rfl rfl rfl rfl rfl

theorem State.Inv.withRxIn {s : State} (h : s.Inv) (bytes : List Byte) : State.Inv { s with rxIn := bytes } :=
  h.of_same rfl rfl rfl rfl rfl rfl rfl rfl rfl

theorem State.Inv.withCrcReg {s : State} (h : s.Inv) (w : Word) : State.Inv { s with crcReg := w } :=
  h.of_same rfl rfl rfl rfl rfl rfl rfl rfl rfl

theorem State.Inv.deliver {s : State} (h : s.Inv) (c : Completion) : (s.deliver c).Inv :=
  h.of_same rfl rfl rfl rfl rfl rfl rfl rfl rfl

theorem State.Inv.emit {s : State} (h : s.Inv) (bytes : List Byte) : (s.emit bytes).Inv :=
  h.of_same rfl rfl rfl rfl rfl rfl rfl rfl rfl

theorem State.Inv.receive {s : State} (h : s.Inv) (bytes : List Byte) : (s.receive bytes).Inv :=
  h.of_same rfl rfl rfl rfl rfl rfl rfl rfl rfl

theorem State.Inv.drainTx {s : State} (h : s.Inv) (n : Nat) : (s.drainTx n).Inv :=
  h.of_same rfl rfl rfl rfl rfl rfl rfl rfl rfl

/-! ### The invariant before LEN is complete -/

/-- Before LEN is complete no cell of RX_BODY has been written (10_state.md R30). -/
theorem State.cellsWritten_beforeLen {s : State} (h : s.rxState.afterLen = false) : s.cellsWritten = 0 := by
  cases hs : s.rxState <;> simp_all [State.cellsWritten, RxState.afterLen]

theorem RxState.ne_of_beforeLen {r r' : RxState} (h : r.afterLen = false) (h' : r'.afterLen = true) : r ≠ r' :=
  fun he => Bool.false_ne_true (h.symm.trans (he ▸ h'))

/-- Before LEN is complete the invariant asks of the RX registers only that RX_BODY be empty: what they hold besides
does not matter, free values among it (R32). -/
theorem State.Inv.of_beforeLen {s : State} (config : s.cfg.wf = true) (busy : s.opBusy = decide (s.rxState ≠ .idle))
    (before : s.rxState.afterLen = false) (empty : s.rxBody = []) : s.Inv where
  config := config
  busy := busy
  cells := by rw [empty, State.cellsWritten_beforeLen before]; rfl
  counting := fun hs => absurd hs (RxState.ne_of_beforeLen before rfl)
  counted := fun hs => absurd (before.symm.trans hs) Bool.false_ne_true
  lenHi := fun hs => absurd (before.symm.trans hs) Bool.false_ne_true
  chkHi := fun hs => absurd hs (RxState.ne_of_beforeLen before rfl)

theorem State.Inv.rxBody_beforeLen {s : State} {r : RxState} (h : s.Inv) (hs : s.rxState = r)
    (before : r.afterLen = false) : s.rxBody = [] := by
  have hc := h.cells
  rw [State.cellsWritten_beforeLen (hs ▸ before)] at hc
  exact List.map_eq_nil_iff.1 hc

/-- OP_BUSY = 1 outside Idle (R22). -/
theorem State.Inv.busy_of_ne_idle {s : State} {r : RxState} (h : s.Inv) (hs : s.rxState = r) (hr : r ≠ .idle) :
    s.opBusy = true :=
  h.busy.trans (decide_eq_true (hs ▸ hr))

/-- A free block is in Idle (R22). -/
theorem State.Inv.idle_of_free {s : State} (h : s.Inv) (hb : s.opBusy = false) : s.rxState = .idle :=
  Classical.not_not.1 fun hs => Bool.false_ne_true (hb.symm.trans (h.busy_of_ne_idle rfl hs))

theorem State.Inv.endDecode {s : State} (h : s.Inv) : s.endDecode.Inv := .of_beforeLen h.config rfl rfl rfl

theorem State.Inv.resetBlock {s : State} (h : s.Inv) : s.resetBlock.Inv := .of_beforeLen h.config rfl rfl rfl

theorem State.Inv.beginDecode {s : State} (h : s.Inv) (hb : s.opBusy = false) (ownId : Byte) :
    (s.beginDecode ownId).Inv :=
  .of_beforeLen h.config rfl rfl (h.rxBody_beforeLen (h.idle_of_free hb) rfl)

/-- A move from a header state to a header state that writes no cell keeps the invariant. -/
theorem State.Inv.header {s t : State} {r : RxState} (h : s.Inv) (hs : s.rxState = r) (hr : r ≠ .idle)
    (before : r.afterLen = false) (cfg : t.cfg = s.cfg) (opBusy : t.opBusy = s.opBusy) (rxBody : t.rxBody = s.rxBody)
    (ht : t.rxState ≠ .idle) (after : t.rxState.afterLen = false) : t.Inv :=
  .of_beforeLen (cfg ▸ h.config) (opBusy.trans ((h.busy_of_ne_idle hs hr).trans (decide_eq_true ht).symm)) after
    (rxBody.trans (h.rxBody_beforeLen hs before))

/-! ### The invariant from LEN on -/

/-- LEN_LO (42_deframer.md R145): RX_LEN is assembled, no body byte has been received. -/
theorem rxLenLoByte_inv {s : State} (h : s.Inv) (hs : s.rxState = .lenLo) (b : Byte) : (rxLenLoByte b s).Inv := by
  have hbusy : s.opBusy = true := h.busy_of_ne_idle hs nofun
  have hempty : s.rxBody = [] := h.rxBody_beforeLen hs rfl
  by_cases hz : joinBytes s.rxLenHi b = 0#16
  case pos =>
    have hhi : hiByte 0#16 = s.rxLenHi := by rw [← hz, hiByte_joinBytes]
    constructor <;> simp [rxLenLoByte, State.cellsWritten, h.config, hbusy, hempty, hz, hhi]
  case neg =>
    have hpos : 0 < (joinBytes s.rxLenHi b).toNat := Nat.pos_of_ne_zero fun h0 => hz (BitVec.eq_of_toNat_eq h0)
    constructor <;> simp [rxLenLoByte, State.cellsWritten, h.config, hbusy, hempty, hz, hpos]

/-- Writing the first cell that is not written yet. -/
theorem memWrite_next_cell {m : Memory} {n : Nat} (h : m.map Prod.fst = List.range n) (b : Byte) :
    (memWrite m n b).map Prod.fst = List.range (n + 1) := by
  have hbelow : ∀ cell ∈ m, cell.1 < n := fun cell hc => List.mem_range.1 (h ▸ List.mem_map_of_mem hc)
  rw [memWrite_append m n b hbelow, List.map_append, h, List.range_succ]
  rfl

/-- In Body the cells written are those below RX_COUNT (10_state.md R29, R30). -/
theorem State.Inv.body_cells {s : State} (h : s.Inv) (hs : s.rxState = .body) :
    s.rxBody.map Prod.fst = List.range s.rxCount.toNat := by
  simpa [State.cellsWritten, hs] using h.cells

/-- In Body RX_COUNT does not wrap round (R29). -/
theorem State.Inv.toNat_rxCount_succ {s : State} (h : s.Inv) (hs : s.rxState = .body) :
    (s.rxCount + 1#16).toNat = s.rxCount.toNat + 1 := by
  have hlt : s.rxCount.toNat < s.rxLen.toNat := h.counting hs
  bv_omega

/-- A body byte (42_deframer.md R146): one more cell is written, and the last one ends Body. -/
theorem bodyByte_inv {s : State} (h : s.Inv) (hs : s.rxState = .body) (b : Byte) :
    State.Inv { s with
      rxBody := memWrite s.rxBody s.rxCount.toNat b
      rxCount := s.rxCount + 1#16
      rxState := if s.rxCount + 1#16 = s.rxLen then .checksumHi else .body } := by
  have hbusy : s.opBusy = true := h.busy_of_ne_idle hs nofun
  have hhi : hiByte s.rxLen = s.rxLenHi := h.lenHi (hs ▸ rfl)
  have hcells := memWrite_next_cell (h.body_cells hs) b
  rw [← h.toNat_rxCount_succ hs] at hcells
  by_cases hlast : s.rxCount + 1#16 = s.rxLen
  case pos =>
    rw [hlast] at hcells
    constructor <;> simp [State.cellsWritten, h.config, hbusy, hhi, hlast, hcells]
  case neg =>
    have hlt : (s.rxCount + 1#16).toNat < s.rxLen.toNat := by
      have hcount := h.counting hs
      have hne : (s.rxCount + 1#16).toNat ≠ s.rxLen.toNat := fun he => hlast (BitVec.eq_of_toNat_eq he)
      rw [h.toNat_rxCount_succ hs] at hne ⊢
      omega
    constructor <;> simp [-BitVec.toNat_add, State.cellsWritten, h.config, hbusy, hhi, hlast, hcells, hlt]

/-- After Body all cells below RX_LEN are written (R30). -/
theorem State.cellsWritten_afterBody {s : State} (ha : s.rxState.afterLen = true) (hn : s.rxState ≠ .body) :
    s.cellsWritten = s.rxLen.toNat := by
  cases hs : s.rxState <;> simp_all [State.cellsWritten, RxState.afterLen]

/-- A checksum byte (42_deframer.md R147, R148): after Body only RX_CHK_HI, RX_CHK and the state change. -/
theorem State.Inv.checksumByte {s : State} {r r' : RxState} {hi : Byte} {chk : Word} (h : s.Inv) (hs : s.rxState = r)
    (ha : r.afterLen = true) (hn : r ≠ .body) (ha' : r'.afterLen = true) (hn' : r' ≠ .body)
    (hchk : r' = .awaitEnd → hiByte chk = hi) :
    State.Inv { s with rxChkHi := hi, rxChk := chk, rxState := r' } := by
  subst hs
  have hidle : s.rxState ≠ .idle := fun h0 => RxState.ne_of_beforeLen (r := .idle) rfl ha h0.symm
  have hidle' : r' ≠ .idle := fun h0 => RxState.ne_of_beforeLen (r := .idle) rfl ha' h0.symm
  exact {
    config := h.config
    busy := (h.busy_of_ne_idle rfl hidle).trans (decide_eq_true hidle').symm
    cells := by
      have hcells := h.cells
      rw [State.cellsWritten_afterBody ha hn] at hcells
      rw [State.cellsWritten_afterBody ha' hn']
      exact hcells
    counting := fun hb => absurd hb hn'
    counted := fun _ _ => h.counted ha hn
    lenHi := fun _ => h.lenHi ha
    chkHi := hchk }

/-! ### Every step keeps the invariant -/

theorem ByteEffect.inv {b : Byte} {s t : State} (h : s.Inv) (he : ByteEffect b s t) : t.Inv := by
  cases he with
  | awaitStart hs =>
    unfold rxAwaitStart
    split
    · exact h.header hs nofun rfl rfl rfl rfl nofun rfl
    · exact h.header hs nofun rfl rfl rfl rfl nofun rfl
  | senderId hs => exact h.header hs nofun rfl rfl rfl rfl nofun rfl
  | receiverId hs => exact h.header hs nofun rfl rfl rfl rfl nofun rfl
  | lenHi hs => exact h.header hs nofun rfl rfl rfl rfl nofun rfl
  | lenLo hs => exact rxLenLoByte_inv h hs b
  | body hs _ => exact bodyByte_inv h hs b
  | checksumHi hs => exact h.checksumByte hs rfl nofun rfl nofun nofun
  | checksumLo hs => exact h.checksumByte hs rfl nofun rfl nofun fun _ => hiByte_joinBytes _ _
  | malformed _ _ => exact h.endDecode.deliver _
  | ended _ _ _ _ => exact h.endDecode.deliver _

theorem Effect.inv {i : Instr} {s t : State} (h : s.Inv) (hb : s.opBusy = false) (he : Effect i s t) : t.Inv := by
  cases he with
  | crc w _ _ _ => exact (h.withCrcReg w).deliver _
  | answer c _ _ => exact h.deliver c
  | emitted bytes _ => exact (h.emit bytes).deliver _
  | decode ownId _ => exact h.beginDecode hb ownId

theorem exec_inv {i : Instr} {s t : State} (h : s.Inv) (he : exec i s = .next t) : t.Inv := by
  rcases exec_cases he with ⟨-, -, rfl⟩ | ⟨-, hb, heff⟩ | ⟨-, bytes, rfl⟩
  · exact h
  · exact heff.inv h hb
  · exact h.receive bytes

theorem runTurn_inv {turn : Turn} {s t : State} (h : s.Inv) (hr : runTurn turn s = .next t) : t.Inv := by
  rcases runTurn_cases hr with rfl | ⟨_, rest, _, -, -, -, -, he⟩ | ⟨_, rest, -, -, -, he⟩ | ⟨-, -, rfl⟩ |
    ⟨bytes, -, rfl⟩ | ⟨n, -, rfl⟩ | ⟨-, rfl⟩
  · exact h
  · exact exec_inv (h.withIssues rest) he
  · exact he.inv (h.withRxIn rest)
  · exact h.endDecode.deliver _
  · exact h.receive bytes
  · exact h.drainTx n
  · exact h.resetBlock

/-- Settles O51: a step is one move, and each move keeps the invariant. -/
theorem stepKeepsInvariant : Obligations.StepKeepsInvariant := by
  intro s t h hstep
  obtain ⟨turn, later, -, heq⟩ := step_eq_runTurn h.config
  exact runTurn_inv (h.withAgenda later) (heq.symm.trans hstep)

/-! ### The invariant excludes the faults (10_state.md R36, 20_memory.md R53) -/

/-- A cell that is listed has a value. -/
theorem memRead_of_mem {m : Memory} {a : Nat} (h : a ∈ m.map Prod.fst) : ∃ b, memRead m a = some b := by
  induction m with
  | nil => cases h
  | cons cell rest ih =>
    obtain ⟨k, v⟩ := cell
    by_cases hk : a = k
    · exact ⟨v, if_pos hk⟩
    · obtain ⟨b, hb⟩ := ih ((List.mem_cons.1 h).resolve_left hk)
      exact ⟨b, (if_neg hk).trans hb⟩

/-- A range of listed cells can be read. -/
theorem memReadRange_of_mem {m : Memory} {start n : Nat} (h : ∀ a, start ≤ a → a < start + n → a ∈ m.map Prod.fst) :
    ∃ bytes, memReadRange m start n = .ok bytes := by
  induction n generalizing start with
  | zero => exact ⟨[], rfl⟩
  | succ n ih =>
    obtain ⟨b, hb⟩ := memRead_of_mem (h start (by omega) (by omega))
    obtain ⟨bytes, hbytes⟩ := ih (start := start + 1) fun a h1 h2 => h a (by omega) (by omega)
    exact ⟨b :: bytes, by simp only [memReadRange, hb, hbytes]⟩

/-- In Body RX_COUNT is the address of a cell that exists. -/
theorem State.Inv.rxBodyByte_next {s : State} (h : s.Inv) (hs : s.rxState = .body) (b : Byte) :
    ∃ t, rxBodyByte b s = .next t := by
  have hlt : s.rxCount.toNat < maxBody := by
    have hcount := h.counting hs
    have hlen := s.rxLen.isLt
    simp only [maxBody]
    omega
  exact ⟨_, if_pos hlt⟩

/-- In AwaitEnd every cell below RX_LEN has been written. -/
theorem State.Inv.rxAwaitEnd_next {s : State} (h : s.Inv) (hs : s.rxState = .awaitEnd) (b : Byte) :
    ∃ t, rxAwaitEnd b s = .next t := by
  have hcells := h.cells
  rw [State.cellsWritten_afterBody (hs ▸ rfl) (hs ▸ nofun)] at hcells
  obtain ⟨bytes, hbytes⟩ : ∃ bytes, memReadRange s.rxBody 0 s.rxLen.toNat = .ok bytes :=
    memReadRange_of_mem fun a _ ha => hcells ▸ List.mem_range.2 (by omega)
  unfold rxAwaitEnd
  split
  · exact ⟨_, rfl⟩
  · rw [hbytes]; exact ⟨_, rfl⟩

theorem State.Inv.deframeByte_next {s : State} (h : s.Inv) (b : Byte) : ∃ t, deframeByte b s = .next t := by
  unfold deframeByte
  split
  case h_7 hs => exact h.rxBodyByte_next hs b
  case h_10 hs => exact h.rxAwaitEnd_next hs b
  all_goals exact ⟨_, rfl⟩

theorem State.Inv.deframeStep_next {s : State} (h : s.Inv) : ∃ t, deframeStep s = .next t := by
  by_cases hs : s.rxState = .idle
  · exact ⟨s, deframeStep_idle hs⟩
  · cases hr : s.rxIn with
    | nil => exact ⟨s, deframeStep_empty hr⟩
    | cons b rest => rw [deframeStep_byte hs hr]; exact (h.withRxIn rest).deframeByte_next b

/-- Presenting an instruction is no fault, whatever the state: what stops there is a refusal (notes/assumptions/19.md). -/
theorem presentHead_ne_fault (s : State) (f : Fault) : presentHead s ≠ .fault f := by
  unfold presentHead
  split
  · exact nofun
  · split
    · exact nofun
    · split
      · exact nofun
      · rename_i i _
        obtain ⟨t, ht⟩ := exec_next i _
        rw [ht]
        exact nofun

theorem State.Inv.runTurn_ne_fault {s : State} (h : s.Inv) (turn : Turn) (f : Fault) : runTurn turn s ≠ .fault f := by
  cases turn with
  | issue => exact presentHead_ne_fault s f
  | deframer =>
    obtain ⟨t, ht⟩ := h.deframeStep_next
    simp [runTurn, ht]
  | timer => exact nofun
  | rxSource bytes => exact nofun
  | txSink n => exact nofun
  | reset => exact nofun

/-- Settles O52: a step is one move, and from a good state only the deframer's could fault, which finds every cell it
needs. -/
theorem invariantExcludesFaults : Obligations.InvariantExcludesFaults := by
  intro s f h
  obtain ⟨turn, later, -, heq⟩ := step_eq_runTurn h.config
  rw [heq]
  exact (h.withAgenda later).runTurn_ne_fault turn f

/-! ### What changes CRC_REG (10_state.md R20) -/

/-- An instruction leaves CRC_REG alone, or it is CRC.CLEAR or CRC.UPDATE and CRC_REG takes its rule's value
(40_crc.md R103, R104). -/
theorem exec_crcReg {i : Instr} {s t : State} (h : exec i s = .next t) :
    t.crcReg = s.crcReg ∨ (i = .crcClear ∧ t.crcReg = s.cfg.crcInit) ∨
      ∃ b, i = .crcUpdate b ∧ t.crcReg = crcStep s.cfg s.crcReg b := by
  rcases exec_cases h with ⟨-, -, rfl⟩ | ⟨hi, hb, heff⟩ | ⟨-, bytes, rfl⟩
  · exact .inl rfl
  · cases heff with
    | crc w p hcrc _ =>
      rw [exec_free hi hb] at h
      have ht := congrArg State.crcReg (Host.Outcome.next.inj h)
      rcases hcrc with rfl | ⟨b, rfl⟩
      · exact .inr (.inl ⟨rfl, ht.symm⟩)
      · exact .inr (.inr ⟨b, rfl, ht.symm⟩)
    | answer c _ _ => exact .inl rfl
    | emitted bytes _ => exact .inl rfl
    | decode ownId _ => exact .inl rfl
  · exact .inl rfl

/-- A move leaves CRC_REG alone, or it is a reset, or it presents CRC.CLEAR or CRC.UPDATE. -/
theorem runTurn_crcReg {turn : Turn} {s t : State} (h : runTurn turn s = .next t) :
    t.crcReg = s.crcReg ∨ (turn = .reset ∧ t.crcReg = s.cfg.crcInit) ∨
      ∃ iss rest i, s.issues = iss :: rest ∧ decode s.cfg iss = .ok i ∧
        ((i = .crcClear ∧ t.crcReg = s.cfg.crcInit) ∨ ∃ b, i = .crcUpdate b ∧ t.crcReg = crcStep s.cfg s.crcReg b) := by
  rcases runTurn_cases h with rfl | ⟨iss, rest, i, -, hq, -, hd, he⟩ | ⟨_, _, -, -, -, he⟩ | ⟨-, -, rfl⟩ |
    ⟨_, -, rfl⟩ | ⟨_, -, rfl⟩ | ⟨hturn, rfl⟩
  · exact .inl rfl
  · exact (exec_crcReg he).imp_right fun hc => .inr ⟨iss, rest, i, hq, hd, hc⟩
  · exact .inl he.frame.2.1
  · exact .inl rfl
  · exact .inl rfl
  · exact .inl rfl
  · exact .inr (.inl ⟨hturn, rfl⟩)

/-- Settles O42, by the one move the step makes; a reset comes from the agenda. -/
theorem crcRegChangedOnlyByCrcOperations : Obligations.CrcRegChangedOnlyByCrcOperations := by
  intro s t hstep hne
  obtain ⟨turn, later, hturn, heq⟩ := step_eq_runTurn (step_cases hstep).1
  rcases runTurn_crcReg (heq.symm.trans hstep) with hsame | ⟨rfl, hcrc⟩ | hissued
  · exact absurd hsame hne
  · exact .inl ⟨head?_of_turn hturn nofun nofun, hcrc⟩
  · exact .inr hissued

/-! ### The parameters (10_state.md R35) -/

theorem exec_cfg {i : Instr} {s t : State} (h : exec i s = .next t) : t.cfg = s.cfg := by
  rcases exec_cases h with ⟨-, -, rfl⟩ | ⟨-, -, heff⟩ | ⟨-, bytes, rfl⟩
  · rfl
  · exact heff.frame.1
  · rfl

theorem runTurn_cfg {turn : Turn} {s t : State} (h : runTurn turn s = .next t) : t.cfg = s.cfg := by
  rcases runTurn_cases h with rfl | ⟨_, _, _, -, -, -, -, he⟩ | ⟨_, _, -, -, -, he⟩ | ⟨-, -, rfl⟩ | ⟨_, -, rfl⟩ |
    ⟨_, -, rfl⟩ | ⟨-, rfl⟩
  case inr.inl => exact (exec_cfg he).trans rfl
  case inr.inr.inl => exact he.frame.1
  all_goals rfl

/-- Settles O43: no move writes the parameters. -/
theorem parametersNeverChange : Obligations.ParametersNeverChange := by
  intro s t hstep
  obtain ⟨turn, later, -, heq⟩ := step_eq_runTurn (step_cases hstep).1
  exact (runTurn_cfg (heq.symm.trans hstep)).trans rfl

/-! ### HOST held, and the channels' other ends (R22, R33, R34) -/

/-- What is held stays in HOST's queue (R22). -/
theorem presentHead_held {s : State} {iss : Issue} {rest : List Issue} (hq : s.issues = iss :: rest)
    (hh : held s iss = true) : presentHead s = .next s := by
  simp [presentHead, hq, hh]

/-- Settles O37: `exec` does not accept an operation while OP_BUSY = 1, and HOST's move does not present it. -/
theorem busyHoldsHost : Obligations.BusyHoldsHost := by
  refine ⟨fun s i hi hb => exec_held hi hb, fun s iss rest later hw hb hq hport ha => ?_⟩
  have hh : held { s with agenda := later } iss = true := by simp [held, hb, hport]
  calc step s = presentHead { s with agenda := later } := step_agenda hw ha
    _ = .next { s with agenda := later } := presentHead_held hq hh

/-- Settles O39: RX_SOURCE's move is `State.receive`, TX_SINK's is `State.drainTx`. -/
theorem channelMoves : Obligations.ChannelMoves := by
  refine ⟨fun s bytes later hw ha => step_agenda hw ha, fun s sent rest later hw htx ha => ?_⟩
  calc step s = .next (State.drainTx { s with agenda := later } sent.length) := step_agenda hw ha
    _ = .next { s with txOut := rest, agenda := later } := by simp [State.drainTx, htx]

end Sys2Proof.Machine
end

section
/-! The memory's statements (20_memory.md): which steps change RX_IN and TX_OUT, and RX_BODY's canonical form. -/

namespace Sys2Proof.Machine

/-! ### RX_IN (20_memory.md R56, R62) -/

/-- An instruction takes no byte of RX_IN: HOST's leave it alone, a frame on the wire goes to its end. -/
theorem exec_rxIn {i : Instr} {s t : State} (h : exec i s = .next t) :
    t.rxIn = s.rxIn ∨ ∃ bytes, t.rxIn = s.rxIn ++ bytes := by
  rcases exec_cases h with ⟨-, -, rfl⟩ | ⟨-, -, heff⟩ | ⟨-, bytes, rfl⟩
  · exact .inl rfl
  · obtain ⟨-, hrxIn, -⟩ := heff.frame
    exact .inl hrxIn
  · exact .inr ⟨bytes, rfl⟩

/-- A move leaves RX_IN alone, or takes its head byte as the deframer's, or adds to its end, or is a reset with the
transport's flush. -/
theorem runTurn_rxIn {turn : Turn} {s t : State} (h : runTurn turn s = .next t) :
    t.rxIn = s.rxIn ∨ (turn = .deframer ∧ s.rxState ≠ .idle ∧ ∃ b, s.rxIn = b :: t.rxIn) ∨
      (∃ bytes, t.rxIn = s.rxIn ++ bytes) ∨ (turn = .reset ∧ s.cfg.flushOnReset = true ∧ t.rxIn = []) := by
  rcases runTurn_cases h with rfl | ⟨_, _, _, -, -, -, -, he⟩ | ⟨b, rest, hturn, hs, hin, he⟩ | ⟨-, -, rfl⟩ |
    ⟨bytes, -, rfl⟩ | ⟨_, -, rfl⟩ | ⟨hturn, rfl⟩
  · exact .inl rfl
  · exact (exec_rxIn he).imp_right fun happended => .inr (.inl happended)
  · obtain ⟨-, -, hrest, -⟩ := he.frame
    exact .inr (.inl ⟨hturn, hs, b, hin.trans (congrArg (b :: ·) hrest.symm)⟩)
  · exact .inl rfl
  · exact .inr (.inr (.inl ⟨bytes, rfl⟩))
  · exact .inl rfl
  · by_cases hflush : s.cfg.flushOnReset = true
    · exact .inr (.inr (.inr ⟨hturn, hflush, if_pos hflush⟩))
    · exact .inl (if_neg hflush)

/-- Settles O40, by the one move the step makes: only the deframer's takes a byte, and a reset comes from the agenda. -/
theorem untakenBytesAreKept : Obligations.UntakenBytesAreKept := by
  intro s t hstep
  obtain ⟨turn, later, hturn, heq⟩ := step_eq_runTurn (step_cases hstep).1
  rcases runTurn_rxIn (heq.symm.trans hstep) with hsame | ⟨rfl, htaken⟩ | happended | ⟨rfl, hflushed⟩
  · exact .inl hsame
  · exact .inr (.inl ⟨hturn.imp_right (And.imp_right Eq.symm), htaken⟩)
  · exact .inr (.inr (.inl happended))
  · exact .inr (.inr (.inr ⟨head?_of_turn hturn nofun nofun, hflushed⟩))

/-! ### TX_OUT (20_memory.md R57, 10_state.md R34) -/

/-- FRAME.ENC that the block accepts (41_framer.md R120): TX_OUT is unchanged, where the body is too long, or grows by
the whole frame that the completion returns. -/
theorem hostEffect_frameEnc_txOut (sender receiver : Byte) (body : List Byte) (s : State) :
    (hostEffect (.frameEnc sender receiver body) s).txOut = s.txOut ∨
      ((hostEffect (.frameEnc sender receiver body) s).txOut = s.txOut ++ encodedFrame s.cfg sender receiver body ∧
        (hostEffect (.frameEnc sender receiver body) s).completions =
          s.completions ++ [.ok (.frame (encodedFrame s.cfg sender receiver body))]) := by
  by_cases hlong : body.length > maxBody
  · simp [hostEffect, hlong]
  · simp [hostEffect, hlong]

/-- An instruction leaves TX_OUT alone, or appends one whole frame and returns it. -/
theorem exec_txOut {i : Instr} {s t : State} (h : exec i s = .next t) :
    t.txOut = s.txOut ∨
      ∃ sender receiver body, t.txOut = s.txOut ++ encodedFrame s.cfg sender receiver body ∧
        t.completions = s.completions ++ [.ok (.frame (encodedFrame s.cfg sender receiver body))] := by
  rcases exec_cases h with ⟨-, -, rfl⟩ | ⟨hi, hb, heff⟩ | ⟨-, bytes, rfl⟩
  · exact .inl rfl
  · cases heff with
    | crc w p _ _ => exact .inl rfl
    | answer c _ _ => exact .inl rfl
    | emitted bytes henc =>
      obtain ⟨sender, receiver, body, rfl⟩ := henc
      rw [← Host.Outcome.next.inj ((exec_free hi hb).symm.trans h)]
      exact (hostEffect_frameEnc_txOut sender receiver body s).imp_right fun hframe => ⟨sender, receiver, body, hframe⟩
    | decode ownId _ => exact .inl rfl
  · exact .inl rfl

/-- A move leaves TX_OUT alone, or appends one whole frame and returns it, or is TX_SINK's, or is a reset with the
transport's flush. -/
theorem runTurn_txOut {turn : Turn} {s t : State} (h : runTurn turn s = .next t) :
    t.txOut = s.txOut ∨
      (∃ sender receiver body, t.txOut = s.txOut ++ encodedFrame s.cfg sender receiver body ∧
        t.completions = s.completions ++ [.ok (.frame (encodedFrame s.cfg sender receiver body))]) ∨
      (∃ n, turn = .txSink n ∧ t.txOut = s.txOut.drop n) ∨
      (turn = .reset ∧ s.cfg.flushOnReset = true ∧ t.txOut = []) := by
  rcases runTurn_cases h with rfl | ⟨_, _, _, -, -, -, -, he⟩ | ⟨_, _, -, -, -, he⟩ | ⟨-, -, rfl⟩ | ⟨_, -, rfl⟩ |
    ⟨n, hturn, rfl⟩ | ⟨hturn, rfl⟩
  · exact .inl rfl
  · exact (exec_txOut he).imp_right .inl
  · obtain ⟨-, -, -, htxOut, -⟩ := he.frame
    exact .inl htxOut
  · exact .inl rfl
  · exact .inl rfl
  · exact .inr (.inr (.inl ⟨n, hturn, rfl⟩))
  · by_cases hflush : s.cfg.flushOnReset = true
    · exact .inr (.inr (.inr ⟨hturn, hflush, if_pos hflush⟩))
    · exact .inl (if_neg hflush)

/-- Settles O41, by the one move the step makes: FRAME.ENC alone appends to TX_OUT, and TX_SINK's move and a reset come
from the agenda. -/
theorem txOutGrowsByWholeFrames : Obligations.TxOutGrowsByWholeFrames := by
  intro s t hstep
  obtain ⟨turn, later, hturn, heq⟩ := step_eq_runTurn (step_cases hstep).1
  rcases runTurn_txOut (heq.symm.trans hstep) with hsame | hframe | ⟨n, rfl, hdrained⟩ | ⟨rfl, hflushed⟩
  · exact .inl hsame
  · exact .inr (.inl hframe)
  · exact .inr (.inr (.inl ⟨n, head?_of_turn hturn nofun nofun, hdrained⟩))
  · exact .inr (.inr (.inr ⟨head?_of_turn hturn nofun nofun, hflushed⟩))

/-! ### RX_BODY (20_memory.md R53) -/

/-- No instruction writes a cell of RX_BODY. -/
theorem exec_rxBody {i : Instr} {s t : State} (h : exec i s = .next t) : t.rxBody = s.rxBody := by
  rcases exec_cases h with ⟨-, -, rfl⟩ | ⟨-, -, heff⟩ | ⟨-, bytes, rfl⟩
  · rfl
  · obtain ⟨-, -, -, -, hrxBody⟩ := heff.frame
    exact hrxBody
  · rfl

/-- A byte keeps RX_BODY canonical: in Body it is stored at an address that exists, the end of a decode empties RX_BODY,
and no other state writes a cell. -/
theorem ByteEffect.rxBody_wf {b : Byte} {s t : State} (he : ByteEffect b s t) (hwf : s.rxBody.wf = true) :
    t.rxBody.wf = true := by
  cases he with
  | awaitStart _ =>
    unfold rxAwaitStart
    split
    · exact hwf
    · exact hwf
  | senderId _ => exact hwf
  | receiverId _ => exact hwf
  | lenHi _ => exact hwf
  | lenLo _ => exact hwf
  | body _ hc => exact memWrite_wf s.rxBody s.rxCount.toNat b hwf hc
  | checksumHi _ => exact hwf
  | checksumLo _ => exact hwf
  | malformed _ _ => exact memory_nil_wf
  | ended _ _ _ _ => exact memory_nil_wf

theorem runTurn_rxBody_wf {turn : Turn} {s t : State} (h : runTurn turn s = .next t) (hwf : s.rxBody.wf = true) :
    t.rxBody.wf = true := by
  rcases runTurn_cases h with rfl | ⟨_, _, _, -, -, -, -, he⟩ | ⟨_, _, -, -, -, he⟩ | ⟨-, -, rfl⟩ | ⟨_, -, rfl⟩ |
    ⟨_, -, rfl⟩ | ⟨-, rfl⟩
  · exact hwf
  · rw [exec_rxBody he]; exact hwf
  · exact he.rxBody_wf hwf
  · exact memory_nil_wf
  · exact hwf
  · exact hwf
  · exact memory_nil_wf

/-- Settles O53: a step is one move, and each move keeps RX_BODY canonical. -/
theorem stepKeepsBodyMemoryCanonical : Obligations.StepKeepsBodyMemoryCanonical := by
  intro s t hwf hstep
  obtain ⟨turn, later, -, heq⟩ := step_eq_runTurn (step_cases hstep).1
  exact runTurn_rxBody_wf (heq.symm.trans hstep) hwf

end Sys2Proof.Machine
end

section
/-! A frame is read by its length (30_encoding.md R73): the deframer's run from AwaitStart over any bytes of a frame's
layout. -/

namespace Sys2Proof.Machine

/-! ### Reading bytes, one deframer move a byte (42_deframer.md R149) -/

/-- The deframer in state `r` with `bytes` next in RX_IN and one deframer move for each of them. -/
def State.reading (s : State) (r : RxState) (bytes rest : List Byte) (later : List Turn) : State :=
  { s with rxState := r, rxIn := bytes ++ rest, agenda := List.replicate bytes.length .deframer ++ later }

theorem step_reading {s : State} {r : RxState} {bytes rest : List Byte} {later : List Turn} (hw : s.cfg.wf = true)
    (hr : r ≠ .idle) (b : Byte) :
    step (s.reading r (b :: bytes) rest later) = deframeByte b (s.reading r bytes rest later) :=
  calc step (s.reading r (b :: bytes) rest later)
      = deframeStep { s.reading r bytes rest later with rxIn := b :: (bytes ++ rest) } :=
        step_deframer (s := s.reading r (b :: bytes) rest later) hw rfl
    _ = deframeByte b (s.reading r bytes rest later) := deframeStep_byte hr rfl

/-- A byte whose rule moves the deframer from `r` to `r'` and turns the other registers from those of `s` into those
of `s'`. -/
theorem run_reading (s s' : State) {r r' : RxState} {b : Byte} {bytes rest : List Byte} {later : List Turn}
    (hw : s.cfg.wf = true) (hr : r ≠ .idle)
    (hb : deframeByte b (s.reading r bytes rest later) = .next (s'.reading r' bytes rest later)) :
    run (b :: bytes).length (s.reading r (b :: bytes) rest later) =
      run bytes.length (s'.reading r' bytes rest later) :=
  run_succ_next ((step_reading hw hr b).trans hb)

theorem deframeByte_start (s : State) (bytes rest : List Byte) (later : List Turn) :
    deframeByte s.cfg.pStart (s.reading .awaitStart bytes rest later) = .next (s.reading .senderId bytes rest later) :=
  congrArg Host.Outcome.next (if_pos rfl)

/-- The registers after the header (R141 to R145). -/
def State.withHeader (s : State) (sender receiver lenHi lenLo : Byte) : State :=
  { s with
    rxSender := sender, rxReceiver := receiver, rxLenHi := lenHi, rxLen := joinBytes lenHi lenLo, rxCount := 0#16 }

/-- A header whose LEN is the body's length. -/
theorem State.withHeader_rxLen (s : State) (sender receiver : Byte) (body : List Byte) :
    (s.withHeader sender receiver (hiByte (lenField body)) (loByte (lenField body))).rxLen = lenField body :=
  joinBytes_hiByte_loByte _

/-- The five header bytes (R141 to R145). A length of 0 skips Body. -/
theorem run_header {s : State} {bytes rest : List Byte} {later : List Turn} (hw : s.cfg.wf = true)
    (sender receiver lenHi lenLo : Byte) :
    run (s.cfg.pStart :: sender :: receiver :: lenHi :: lenLo :: bytes).length
        (s.reading .awaitStart (s.cfg.pStart :: sender :: receiver :: lenHi :: lenLo :: bytes) rest later) =
      run bytes.length
        ((s.withHeader sender receiver lenHi lenLo).reading
          (if joinBytes lenHi lenLo = 0#16 then .checksumHi else .body) bytes rest later) :=
  let afterSender : State := { s with rxSender := sender }
  let afterReceiver : State := { afterSender with rxReceiver := receiver }
  let afterLenHi : State := { afterReceiver with rxLenHi := lenHi }
  calc
    _ = _ := run_reading s s (r := .awaitStart) (r' := .senderId) hw nofun (deframeByte_start ..)
    _ = _ := run_reading s afterSender (r := .senderId) (r' := .receiverId) hw nofun rfl
    _ = _ := run_reading afterSender afterReceiver (r := .receiverId) (r' := .lenHi) hw nofun rfl
    _ = _ := run_reading afterReceiver afterLenHi (r := .lenHi) (r' := .lenLo) hw nofun rfl
    _ = _ := run_reading afterLenHi _ (r := .lenLo) hw nofun rfl

/-- RX_BODY after bytes have been stored one after another from an address on. -/
def storeBytes (m : Memory) (start : Nat) : List Byte → Memory
  | [] => m
  | b :: bytes => storeBytes (memWrite m start b) (start + 1) bytes

theorem memRead_storeBytes_below {m : Memory} {start a : Nat} (bytes : List Byte) (ha : a < start) :
    memRead (storeBytes m start bytes) a = memRead m a := by
  induction bytes generalizing m start with
  | nil => rfl
  | cons b bytes ih =>
    exact (ih (Nat.lt_succ_of_lt ha)).trans (memRead_memWrite_other m b (Nat.ne_of_lt ha))

/-- What has been stored is read back. -/
theorem memReadRange_storeBytes (m : Memory) (start : Nat) (bytes : List Byte) :
    memReadRange (storeBytes m start bytes) start bytes.length = .ok bytes := by
  induction bytes generalizing m start with
  | nil => rfl
  | cons b bytes ih =>
    have hfirst : memRead (storeBytes (memWrite m start b) (start + 1) bytes) start = some b :=
      (memRead_storeBytes_below bytes (Nat.lt_succ_self start)).trans (memRead_memWrite_same m start b)
    simp only [storeBytes, List.length_cons, memReadRange, hfirst, ih]

/-- The registers after the body bytes that RX_LEN still asks for (R146). -/
def State.withBody (s : State) (body : List Byte) : State :=
  { s with rxBody := storeBytes s.rxBody s.rxCount.toNat body, rxCount := s.rxLen }

/-- The body bytes that RX_LEN still asks for (R146): each goes to the next cell, and the last one ends Body. With none
left the deframer is already in ChecksumHi. -/
theorem run_body {s : State} {tail rest : List Byte} {later : List Turn} (hw : s.cfg.wf = true) (body : List Byte)
    (hlen : s.rxCount.toNat + body.length = s.rxLen.toNat) :
    run (body ++ tail).length
        (s.reading (if s.rxCount = s.rxLen then .checksumHi else .body) (body ++ tail) rest later) =
      run tail.length ((s.withBody body).reading .checksumHi tail rest later) := by
  induction body generalizing s with
  | nil =>
    have hcount : s.rxCount = s.rxLen := BitVec.eq_of_toNat_eq hlen
    rw [if_pos hcount]
    exact congrArg
      (fun count => run tail.length (State.reading { s with rxCount := count } .checksumHi tail rest later)) hcount
  | cons b body ih =>
    have hmax : s.rxLen.toNat < 65536 := s.rxLen.isLt
    rw [List.length_cons] at hlen
    have hne : s.rxCount ≠ s.rxLen := fun h => by rw [h] at hlen; omega
    have hsucc : (s.rxCount + 1#16).toNat = s.rxCount.toNat + 1 := by bv_omega
    have hcell : s.rxCount.toNat < maxBody := by simp only [maxBody]; omega
    let stored : State := { s with rxBody := memWrite s.rxBody s.rxCount.toNat b, rxCount := s.rxCount + 1#16 }
    rw [if_neg hne]
    calc
      _ = run (body ++ tail).length
            (stored.reading (if stored.rxCount = stored.rxLen then .checksumHi else .body) (body ++ tail) rest later) :=
          run_reading s stored (r := .body) hw nofun (if_pos hcell)
      _ = _ := ih (s := stored) hw (by show (s.rxCount + 1#16).toNat + body.length = s.rxLen.toNat; omega)
      _ = _ := by simp only [stored, State.withBody, storeBytes, hsucc]

/-- AwaitEnd with the body in RX_BODY (R150): R150's verdict, which is MALFORMED_FRAME for a wrong END whatever the
body. -/
theorem rxAwaitEnd_verdict {s : State} {body : List Byte} (hr : memReadRange s.rxBody 0 s.rxLen.toNat = .ok body)
    (b : Byte) :
    rxAwaitEnd b s =
      .next (s.endDecode.deliver (frameVerdict s.cfg s.rxOwnId s.rxSender s.rxReceiver body s.rxChk b)) := by
  by_cases hb : b = s.cfg.pEnd
  · simp [rxAwaitEnd, hb, hr]
  · simp [rxAwaitEnd, frameVerdict, hb]

/-- The two checksum bytes and the last byte (R147, R148, R150). -/
theorem run_tail {s : State} {body rest : List Byte} {later : List Turn} (hw : s.cfg.wf = true)
    (hr : memReadRange s.rxBody 0 s.rxLen.toNat = .ok body) (chkHi chkLo endByte : Byte) :
    run [chkHi, chkLo, endByte].length (s.reading .checksumHi [chkHi, chkLo, endByte] rest later) =
      .next ((State.endDecode { s with rxIn := rest, agenda := later }).deliver
        (frameVerdict s.cfg s.rxOwnId s.rxSender s.rxReceiver body (joinBytes chkHi chkLo) endByte)) :=
  let afterChkHi : State := { s with rxChkHi := chkHi }
  let afterChk : State := { afterChkHi with rxChk := joinBytes chkHi chkLo }
  calc
    _ = _ := run_reading s afterChkHi (r := .checksumHi) (r' := .checksumLo) hw nofun rfl
    _ = _ := run_reading afterChkHi afterChk (r := .checksumLo) (r' := .awaitEnd) hw nofun rfl
    _ = run 0 _ := run_succ_next ((step_reading (s := afterChk) (r := .awaitEnd) hw nofun endByte).trans
        (rxAwaitEnd_verdict (s := afterChk.reading .awaitEnd [] rest later) hr endByte))

/-- From AwaitStart the bytes of any frame's layout are taken in 8 + n steps (R73) and judged as a whole (R150); the
RX registers are unspecified afterwards (10_state.md R32), and nothing else changes. -/
theorem run_frameLayout {s : State} {sender receiver endByte : Byte} {body rest : List Byte} {checksum : Word}
    {later : List Turn} (hw : s.cfg.wf = true) (hs : s.rxState = .awaitStart) (hbody : body.length ≤ maxBody)
    (hin : s.rxIn = frameLayout s.cfg sender receiver body checksum endByte ++ rest)
    (ha : s.agenda = List.replicate (8 + body.length) .deframer ++ later) :
    run (8 + body.length) s =
      .next ((State.endDecode { s with rxIn := rest, agenda := later }).deliver
        (frameVerdict s.cfg s.rxOwnId sender receiver body checksum endByte)) := by
  have hlen : (lenField body).toNat = body.length := lenField_toNat body hbody
  have hreading : s.reading .awaitStart (frameLayout s.cfg sender receiver body checksum endByte) rest later = s := by
    rw [State.reading, frameLayout_length, ← hin, ← ha, ← hs]
  let header : State := s.withHeader sender receiver (hiByte (lenField body)) (loByte (lenField body))
  have hheader : header.rxLen = lenField body := s.withHeader_rxLen sender receiver body
  have hread : memReadRange (header.withBody body).rxBody 0 header.rxLen.toNat = .ok body := by
    rw [hheader, hlen]
    exact memReadRange_storeBytes s.rxBody 0 body
  calc run (8 + body.length) s
      = run (frameLayout s.cfg sender receiver body checksum endByte).length
          (s.reading .awaitStart (frameLayout s.cfg sender receiver body checksum endByte) rest later) := by
        rw [frameLayout_length, hreading]
    _ = run (body ++ [hiByte checksum, loByte checksum, endByte]).length
          (header.reading (if header.rxLen = 0#16 then .checksumHi else .body)
            (body ++ [hiByte checksum, loByte checksum, endByte]) rest later) :=
        run_header hw sender receiver (hiByte (lenField body)) (loByte (lenField body))
    _ = run [hiByte checksum, loByte checksum, endByte].length
          ((header.withBody body).reading .checksumHi [hiByte checksum, loByte checksum, endByte] rest later) := by
        simp only [eq_comm (b := 0#16)]
        exact run_body (s := header) hw body (by rw [hheader, hlen]; exact Nat.zero_add _)
    _ = _ := run_tail (s := header.withBody body) hw hread (hiByte checksum) (loByte checksum) endByte
    _ = _ := by rw [joinBytes_hiByte_loByte]; rfl

/-- Settles O17, by the state that the whole run ends in. -/
theorem deframerReadsFrameByItsLength : Obligations.DeframerReadsFrameByItsLength := by
  intro s sender receiver endByte body rest checksum later hw hs hbody hin ha
  exact ⟨_, run_frameLayout hw hs hbody hin ha, rfl, rfl, rfl, rfl, rfl, rfl, rfl, rfl, rfl⟩

end Sys2Proof.Machine
end

section
/-! The encoding's statements (30_encoding.md): the one spelling of what is on the wire, the fields of frames and flags
bytes, and the rows of the opcode table. -/

namespace Sys2Proof.Machine

/-! ### One spelling on the wire: response bodies (30_encoding.md R76) -/

/-- What a row's decoder reads is well-formed and encodes to the bytes presented. -/
def Spelled (c : Config) (i : Instr) (iss : Issue) : Prop := i.wellFormed = true ∧ encode c i = iss

section
variable {c : Config} {rest : List Byte} {i : Instr}

theorem spelled_rspRead (h : decodeRspRead rest = .ok i) : Spelled c i ⟨.rspBody, c.responseType .read :: rest⟩ := by
  unfold decodeRspRead at h
  split at h <;> cases h
  exact ⟨rfl, by simp [encode]⟩

theorem spelled_rspWrite (h : decodeRspWrite rest = .ok i) : Spelled c i ⟨.rspBody, c.responseType .write :: rest⟩ := by
  unfold decodeRspWrite at h
  split at h <;> cases h
  exact ⟨rfl, rfl⟩

theorem spelled_rspToggle (h : decodeRspToggle rest = .ok i) :
    Spelled c i ⟨.rspBody, c.responseType .toggle :: rest⟩ := by
  unfold decodeRspToggle at h
  split at h <;> cases h
  exact ⟨rfl, rfl⟩

theorem spelled_rspI2cWrite (h : decodeRspI2cWrite rest = .ok i) :
    Spelled c i ⟨.rspBody, c.responseType .i2cWrite :: rest⟩ := by
  unfold decodeRspI2cWrite at h
  split at h <;> cases h
  exact ⟨rfl, rfl⟩

theorem spelled_rspError (h : decodeRspError rest = .ok i) : Spelled c i ⟨.rspBody, c.typeError :: rest⟩ := by
  unfold decodeRspError at h
  split at h <;> cases h
  exact ⟨rfl, rfl⟩

theorem spelled_rspBody {bytes : List Byte} (h : decodeRspBody c bytes = .ok i) : Spelled c i ⟨.rspBody, bytes⟩ := by
  cases bytes with
  | nil => cases h
  | cons t rest =>
    simp only [decodeRspBody] at h
    split_ifs at h with hread hwrite htoggle hi2c herror
    · exact hread ▸ spelled_rspRead h
    · exact hwrite ▸ spelled_rspWrite h
    · exact htoggle ▸ spelled_rspToggle h
    · exact hi2c ▸ spelled_rspI2cWrite h
    · exact herror ▸ spelled_rspError h

/-! ### One spelling on the wire: frames (R70, R73) -/

/-- The length that LEN declares is the length of the body read, so LEN is written back (R71). -/
theorem lenField_of_length {body : List Byte} {len : Word} (h : body.length = len.toNat) : lenField body = len :=
  BitVec.eq_of_toNat_eq (by simp [lenField, h])

theorem spelled_frameTail {sender receiver lenHi lenLo : Byte}
    (h : decodeFrameTail sender receiver (joinBytes lenHi lenLo).toNat rest = .ok i) :
    Spelled c i ⟨.frame, c.pStart :: sender :: receiver :: lenHi :: lenLo :: rest⟩ := by
  unfold decodeFrameTail at h
  split at h <;> cases h
  next chkHi chkLo endByte htail =>
    have hlen : (rest.take (joinBytes lenHi lenLo).toNat).length = (joinBytes lenHi lenLo).toNat := by
      have hdrop := congrArg List.length htail
      rw [List.length_drop] at hdrop
      rw [List.length_take]
      simp only [List.length_cons, List.length_nil] at hdrop
      omega
    have hmax : (joinBytes lenHi lenLo).toNat < 65536 := (joinBytes lenHi lenLo).isLt
    refine ⟨decide_eq_true (by rw [hlen, maxBody]; omega), ?_⟩
    simp only [encode, frameLayout, lenField_of_length hlen, hiByte_joinBytes, loByte_joinBytes, ← htail,
      List.take_append_drop, List.cons_append, List.nil_append]

theorem spelled_frame {bytes : List Byte} (h : decodeFrame c bytes = .ok i) : Spelled c i ⟨.frame, bytes⟩ := by
  unfold decodeFrame at h
  split at h
  next => cases h
  next start more =>
    split at h
    next hstart =>
      split at h
      next => exact hstart ▸ spelled_frameTail h
      next => cases h
    next => cases h

/-! ### One spelling on the wire: request bodies, but for the flag bits no field owns (R75, R80) -/

theorem spelled_reqRead (h : decodeReqRead c rest = .ok i) :
    Spelled c i ⟨.reqBody, clearUnassigned c (c.typeRead :: rest)⟩ := by
  unfold decodeReqRead at h
  split at h <;> cases h
  exact ⟨rfl, by simp [encode, readBody, readFlags_flagField, clearUnassigned, byteAt]⟩

theorem spelled_reqWrite (hne : c.typeWrite ≠ c.typeRead) (h : decodeReqWrite c rest = .ok i) :
    Spelled c i ⟨.reqBody, clearUnassigned c (c.typeWrite :: rest)⟩ := by
  unfold decodeReqWrite at h
  split at h <;> cases h
  exact ⟨rfl, by simp [encode, writeBody, writeFlags_flagField, clearUnassigned, byteAt, hne]⟩

theorem spelled_reqToggle (hr : c.typeToggle ≠ c.typeRead) (hw : c.typeToggle ≠ c.typeWrite)
    (hi : c.typeToggle ≠ c.typeI2cWrite) (h : decodeReqToggle rest = .ok i) :
    Spelled c i ⟨.reqBody, clearUnassigned c (c.typeToggle :: rest)⟩ := by
  unfold decodeReqToggle at h
  split at h <;> cases h
  exact ⟨rfl, by simp [encode, toggleBody, clearUnassigned, hr, hw, hi]⟩

theorem spelled_reqI2cWrite (hr : c.typeI2cWrite ≠ c.typeRead) (hw : c.typeI2cWrite ≠ c.typeWrite)
    (h : decodeReqI2cWrite c rest = .ok i) :
    Spelled c i ⟨.reqBody, clearUnassigned c (c.typeI2cWrite :: rest)⟩ := by
  unfold decodeReqI2cWrite at h
  split at h
  next address flags data =>
    split at h <;> cases h
    next hdata =>
      exact ⟨decide_eq_true hdata, by simp [encode, i2cBody, i2cFlags_flagField, clearUnassigned, byteAt, hr, hw]⟩
  next => cases h

theorem spelled_reqBody (hc : c.wf = true) {bytes : List Byte} (h : decodeReqBody c bytes = .ok i) :
    Spelled c i ⟨.reqBody, clearUnassigned c bytes⟩ := by
  have hti : c.typeToggle ≠ c.typeI2cWrite := by
    have hnodup := Config.wf_requestTypes hc
    simp only [List.nodup_cons, List.mem_cons, List.not_mem_nil, or_false] at hnodup
    obtain ⟨-, -, hti, -⟩ := hnodup
    exact hti
  cases bytes with
  | nil => cases h
  | cons t rest =>
    simp only [decodeReqBody] at h
    split_ifs at h with hread hwrite htoggle hi2c
    · exact hread ▸ spelled_reqRead h
    · subst hwrite; exact spelled_reqWrite hread h
    · subst htoggle; exact spelled_reqToggle hread hwrite hti h
    · subst hi2c; exact spelled_reqI2cWrite hread hwrite h

end

/-- Settles O57, by the decoder that the issue's port selects. -/
theorem encodeOfDecodeOnTheWire : Obligations.EncodeOfDecodeOnTheWire := by
  rintro cfg ⟨port, bytes⟩ i hc h
  cases port with
  | op => exact ⟨nofun, nofun⟩
  | reqBody => exact ⟨nofun, fun _ => spelled_reqBody hc h⟩
  | rspBody => exact ⟨fun _ => spelled_rspBody h, nofun⟩
  | frame => exact ⟨fun _ => spelled_frame h, nofun⟩

/-! ### The fields of a frame (R70, R71) -/

theorem toNat_hiByte_loByte (v : Word) : (hiByte v).toNat * 256 + (loByte v).toNat = v.toNat := by
  have hv : v.toNat < 65536 := v.isLt
  simp only [hiByte, loByte, BitVec.extractLsb'_toNat, Nat.shiftRight_eq_div_pow]
  omega

/-- The first body byte stands at offset 5 (R70). -/
theorem frameLayout_body (c : Config) (sender receiver : Byte) (body : List Byte) (checksum : Word) (endByte : Byte)
    {i : Nat} (hi : i < body.length) :
    (frameLayout c sender receiver body checksum endByte)[5 + i]? = body[i]? := by
  rw [frameLayout, List.append_assoc, List.getElem?_append_right (Nat.le_add_right 5 i),
    List.getElem?_append_left (by simpa using hi)]
  simp

/-- The three bytes after the body (R70). -/
theorem frameLayout_tail (c : Config) (sender receiver : Byte) (body : List Byte) (checksum : Word) (endByte : Byte)
    (k : Nat) :
    (frameLayout c sender receiver body checksum endByte)[5 + body.length + k]? =
      [hiByte checksum, loByte checksum, endByte][k]? := by
  rw [frameLayout, List.getElem?_append_right (by simp; omega)]
  congr 1
  simp; omega

/-- Settles O9: the header's fields by evaluation, the others at the offset the body's length gives. -/
theorem frameFieldsAtTheirOffsets : Obligations.FrameFieldsAtTheirOffsets := by
  intro cfg sender receiver body hbody
  have htail (k : Nat) : (encodedFrame cfg sender receiver body)[5 + k + body.length]? =
      [hiByte (frameCrc cfg sender receiver body), loByte (frameCrc cfg sender receiver body), cfg.pEnd][k]? := by
    rw [Nat.add_right_comm]; exact frameLayout_tail ..
  refine ⟨frameLayout_length .., rfl, rfl, rfl, ⟨_, _, rfl, rfl, ?_⟩, fun i hi => frameLayout_body _ _ _ _ _ _ hi,
    ⟨_, _, htail 0, htail 1, toNat_hiByte_loByte _⟩, htail 2⟩
  rw [toNat_hiByte_loByte, lenField_toNat body hbody]

/-! ### The fields of a flags byte (R80) -/

/-- What fields at their positions give for one bit of a flags byte. -/
def fieldAt (fields : List (Fin 8 × Bool)) (p : Fin 8) : Bool := fields.any fun field => field.2 && decide (field.1 = p)

/-- At the position of a field, its value, where the positions are distinct. -/
theorem fieldAt_of_mem {fields : List (Fin 8 × Bool)} {p : Fin 8} {b : Bool} (hd : (fields.map Prod.fst).Nodup)
    (hm : (p, b) ∈ fields) : fieldAt fields p = b := by
  have hone : ∀ field ∈ fields, field.1 = p → field = (p, b) := fun _ hf hp => List.inj_on_of_nodup_map hd hf hm hp
  cases b with
  | true => exact List.any_eq_true.2 ⟨_, hm, by simp⟩
  | false =>
    refine List.any_eq_false.2 fun field hf hbit => ?_
    obtain ⟨hset, hp⟩ := Bool.and_eq_true_iff.1 hbit
    rw [hone field hf (of_decide_eq_true hp)] at hset
    exact Bool.false_ne_true hset

/-- At a position no field owns, 0. -/
theorem fieldAt_of_notMem {fields : List (Fin 8 × Bool)} {p : Fin 8} (hp : p ∉ fields.map Prod.fst) :
    fieldAt fields p = false := by
  refine List.any_eq_false.2 fun field hf hbit => hp ?_
  exact of_decide_eq_true (Bool.and_eq_true_iff.1 hbit).2 ▸ List.mem_map_of_mem hf

/-- The fields of a Read request's flags byte. -/
def readFields (c : Config) (pullup pulldown analog invert direct : Bool) : List (Fin 8 × Bool) :=
  [(c.readPullupBit, pullup), (c.readPulldownBit, pulldown), (c.readAnalogBit, analog), (c.readInvertBit, invert),
    (c.readDirectBit, direct)]

/-- The fields of a Write request's flags byte. -/
def writeFields (c : Config) (analog invert : Bool) : List (Fin 8 × Bool) :=
  [(c.writeAnalogBit, analog), (c.writeInvertBit, invert)]

theorem getLsbD_readFlags (c : Config) (pullup pulldown analog invert direct : Bool) (p : Fin 8) :
    (readFlags c pullup pulldown analog invert direct).getLsbD p =
      fieldAt (readFields c pullup pulldown analog invert direct) p := by
  show flagField p _ = _
  simp [readFlags, flagField_or, flagField_flagBit, fieldAt, readFields, Bool.or_assoc]

theorem getLsbD_writeFlags (c : Config) (analog invert : Bool) (p : Fin 8) :
    (writeFlags c analog invert).getLsbD p = fieldAt (writeFields c analog invert) p := by
  show flagField p _ = _
  simp [writeFlags, flagField_or, flagField_flagBit, fieldAt, writeFields]

theorem getLsbD_i2cFlags (c : Config) (stop : Bool) (p : Fin 8) :
    (i2cFlags c stop).getLsbD p = fieldAt [(c.i2cStopBit, stop)] p := by
  show flagField p _ = _
  simp [i2cFlags, flagField_flagBit, fieldAt]

/-- Settles O23, by the fields of each flags byte and their distinct positions. -/
theorem flagsBytesCarryTheirFields : Obligations.FlagsBytesCarryTheirFields := by
  refine ⟨?read, ?write, ?i2c, by decide, by decide, by decide⟩
  case read =>
    intro cfg pullup pulldown analog invert direct hc
    have hfield {p : Fin 8} {b : Bool} (hm : (p, b) ∈ readFields cfg pullup pulldown analog invert direct) :
        (readFlags cfg pullup pulldown analog invert direct).getLsbD p = b :=
      (getLsbD_readFlags ..).trans (fieldAt_of_mem (Config.wf_readFlags hc) hm)
    exact ⟨hfield (by simp [readFields]), hfield (by simp [readFields]), hfield (by simp [readFields]),
      hfield (by simp [readFields]), hfield (by simp [readFields]),
      fun p hp => (getLsbD_readFlags ..).trans (fieldAt_of_notMem hp)⟩
  case write =>
    intro cfg analog invert hc
    have hfield {p : Fin 8} {b : Bool} (hm : (p, b) ∈ writeFields cfg analog invert) :
        (writeFlags cfg analog invert).getLsbD p = b :=
      (getLsbD_writeFlags ..).trans (fieldAt_of_mem (Config.wf_writeFlags hc) hm)
    exact ⟨hfield (by simp [writeFields]), hfield (by simp [writeFields]),
      fun p hp => (getLsbD_writeFlags ..).trans (fieldAt_of_notMem hp)⟩
  case i2c =>
    intro cfg stop
    exact ⟨(getLsbD_i2cFlags ..).trans (fieldAt_of_mem (List.nodup_singleton _) List.mem_cons_self),
      fun p hp => (getLsbD_i2cFlags ..).trans (fieldAt_of_notMem (by simpa using hp))⟩

/-! ### Rows of the opcode table (R75, R76, R88; notes/assumptions/5.md) -/

/-- The command encoder's answer for data that fits (43_command_encoder.md R184). -/
theorem i2cWriteAnswer_fits (cfg : Config) (address : Byte) {data : List Byte} (stop : Bool)
    (h : data.length ≤ maxI2cData) :
    i2cWriteAnswer cfg address data stop = .ok (.body (i2cBody cfg address data stop)) :=
  if_neg (Nat.not_lt.2 h)

/-- Its answer for data that does not fit. -/
theorem i2cWriteAnswer_tooLong (cfg : Config) (address : Byte) {data : List Byte} (stop : Bool)
    (h : maxI2cData < data.length) : i2cWriteAnswer cfg address data stop = .err (.encBodyTooLong data.length) :=
  if_pos h

/-- Settles O28: each row's effect delivers the body that `encode` gives for its fields. -/
theorem requestRowsCompleteWithTheirBody : Obligations.RequestRowsCompleteWithTheirBody := by
  refine ⟨fun s _ _ _ _ _ _ hb => exec_free rfl hb, fun s _ _ _ _ hb => exec_free rfl hb,
    fun s _ hb => exec_free rfl hb, ?fits, ?tooLong⟩
  case fits =>
    intro s address data stop hb hdata
    rw [exec_free rfl hb, hostEffect, i2cWriteAnswer_fits s.cfg address stop hdata]
    rfl
  case tooLong =>
    intro s address data stop hb hdata
    rw [exec_free rfl hb, hostEffect, i2cWriteAnswer_tooLong s.cfg address stop hdata]
    rfl

/-- A body of the expected kind's shape is decoded as that kind (44_response_decoder.md R200). -/
theorem decodeAnswer_of_shape {cfg : Config} {kind : Kind} {body : List Byte} (hl : body.length = responseLength kind)
    (ht : body.head? = some (cfg.responseType kind)) :
    decodeAnswer cfg kind body = .ok (.response (decodeResponse cfg kind body)) :=
  if_pos (matchesShape_iff.2 ⟨hl, ht⟩)

/-- Settles O35: each row's body has the shape of its own kind. -/
theorem responseRowsDecode : Obligations.ResponseRowsDecode := by
  refine ⟨?read, ?write, ?toggle, ?i2cWrite, fun s code hb => exec_free rfl hb⟩
  case read =>
    intro s value hb
    have hvalue : decodeResponse s.cfg .read [s.cfg.responseType .read, hiByte value, loByte value] = .read value :=
      congrArg Response.read (joinBytes_hiByte_loByte value)
    rw [exec_free rfl hb, hostEffect, decodeAnswer_of_shape rfl rfl, hvalue]
    rfl
  case write =>
    intro s hb
    rw [exec_free rfl hb, hostEffect, decodeAnswer_of_shape rfl rfl]
    rfl
  case toggle =>
    intro s newValue hb
    rw [exec_free rfl hb, hostEffect, decodeAnswer_of_shape rfl rfl]
    rfl
  case i2cWrite =>
    intro s code hb
    rw [exec_free rfl hb, hostEffect, decodeAnswer_of_shape rfl rfl]
    rfl

theorem hiByte_lenField (body : List Byte) : hiByte (lenField body) = BitVec.ofNat 8 (body.length / 256) := by
  apply BitVec.eq_of_toNat_eq
  simp only [hiByte, lenField, BitVec.extractLsb'_toNat, BitVec.toNat_ofNat, Nat.shiftRight_eq_div_pow]
  omega

theorem loByte_lenField (body : List Byte) : loByte (lenField body) = BitVec.ofNat 8 body.length := by
  apply BitVec.eq_of_toNat_eq
  simp only [loByte, lenField, BitVec.extractLsb'_toNat, BitVec.toNat_ofNat, Nat.shiftRight_eq_div_pow]
  omega

/-- Settles O38: the row's bytes are the frame's layout, whose LEN is the body's length. -/
theorem frameRowArrivesInRxIn : Obligations.FrameRowArrivesInRxIn := by
  intro s sender receiver endByte body checksum _
  calc exec (.sdspFrame sender receiver body checksum endByte) s
      = .next (s.receive (frameLayout s.cfg sender receiver body checksum endByte)) := rfl
    _ = _ := by simp [State.receive, frameLayout, hiByte_lenField, loByte_lenField]

/-- Settles O55: the decoder evaluates each word. -/
theorem tableWordsDecode : Obligations.TableWordsDecode := by
  unfold Obligations.TableWordsDecode
  decide

end Sys2Proof.Machine
end

section
/-! The CRC unit's statements (40_crc.md): the CRC function, the three operations, the checksum of a frame, and the
change that one wrong byte makes to it. -/

namespace Sys2Proof.Machine

/-! ### The CRC function (R100 to R102) -/

/-- The check value of the CRC function (R102). -/
theorem crc16_checkValue :
    crc16 Config.reference [0x31#8, 0x32#8, 0x33#8, 0x34#8, 0x35#8, 0x36#8, 0x37#8, 0x38#8, 0x39#8] = 0x2189#16 := by
  decide +kernel

theorem crcShifts_eq_iterate (k : Word) (n : Nat) (c : Word) : crcShifts k n c = (crcShift k)^[n] c := by
  induction n generalizing c with
  | zero => rfl
  | succ n ih => exact ih (crcShift k c)

@[simp] theorem crcShifts_zero (k : Word) (n : Nat) : crcShifts k n 0#16 = 0#16 := by
  induction n with
  | zero => rfl
  | succ n ih => exact ih

/-- Settles O4: `crcShifts` iterates the shift, whose constant is that of either CRC_ALGO. -/
theorem crcIsTheSpecifiedLoop : Obligations.CrcIsTheSpecifiedLoop := by
  refine ⟨fun cfg c b => ?_, fun _ _ => rfl, fun _ => rfl, crc16_checkValue⟩
  rw [crcStep, crcShifts_eq_iterate]
  exact congrFun (congrArg (·^[8]) (funext fun x => by cases cfg.crcAlgo <;> rfl)) _

/-! ### The three operations (R103 to R105) -/

/-- What the CRC operations change: CRC_REG, and the completions by new ones at the end. -/
def State.withCrc (s : State) (crc : Word) (answers : List Completion) : State :=
  { s with crcReg := crc, completions := s.completions ++ answers }

@[simp] theorem State.withCrc_withCrc (s : State) (crc crc' : Word) (answers answers' : List Completion) :
    (s.withCrc crc answers).withCrc crc' answers' = s.withCrc crc' (answers ++ answers') := by
  simp [State.withCrc]

/-- CRC.CLEAR that the block accepts (R103). -/
theorem exec_crcClear {s : State} (hb : s.opBusy = false) :
    exec .crcClear s = .next (s.withCrc s.cfg.crcInit [.ok .none]) :=
  exec_free rfl hb

/-- CRC.UPDATE that the block accepts (R104). -/
theorem exec_crcUpdate {s : State} (b : Byte) (hb : s.opBusy = false) :
    exec (.crcUpdate b) s =
      .next (s.withCrc (crcStep s.cfg s.crcReg b) [.ok (.crc (crcStep s.cfg s.crcReg b))]) :=
  exec_free rfl hb

/-- CRC.READ that the block accepts (R105). -/
theorem exec_crcRead {s : State} (hb : s.opBusy = false) :
    exec .crcRead s = .next (s.withCrc s.crcReg [.ok (.crc (s.crcReg ^^^ s.cfg.crcXorOut))]) :=
  exec_free rfl hb

/-- Settles O1. -/
theorem crcClearLoadsCrcInit : Obligations.CrcClearLoadsCrcInit := fun _ hb => exec_crcClear hb

/-- Settles O2: the corner cases are eight shifts of a literal with the constant that CRC_ALGO sets. -/
theorem crcUpdateFoldsOneByte : Obligations.CrcUpdateFoldsOneByte := by
  refine ⟨fun _ b hb => exec_crcUpdate b hb, fun _ => crcShifts_zero _ 8, ?reflected, ?raw, by decide⟩
  case reflected =>
    intro cfg halgo
    rw [crcStep, halgo]
    decide
  case raw =>
    intro cfg halgo
    rw [crcStep, halgo]
    decide

theorem execAll_cons {i : Instr} {is : List Instr} {s t : State} (h : exec i s = .next t) :
    execAll (i :: is) s = execAll is t := by
  simp only [execAll, h]

/-- One CRC.UPDATE a byte folds the bytes into CRC_REG, with one completion each (R104). -/
theorem execAll_crcUpdates {s : State} (bytes : List Byte) (hb : s.opBusy = false) :
    ∃ answers : List Completion, answers.length = bytes.length ∧
      execAll (bytes.map Instr.crcUpdate) s = .next (s.withCrc (crcFold s.cfg s.crcReg bytes) answers) := by
  induction bytes generalizing s with
  | nil => exact ⟨[], rfl, by simp [execAll, State.withCrc]⟩
  | cons b bytes ih =>
    let answer : Completion := .ok (.crc (crcStep s.cfg s.crcReg b))
    obtain ⟨answers, hlength, hrun⟩ := ih (s := s.withCrc (crcStep s.cfg s.crcReg b) [answer]) hb
    refine ⟨answer :: answers, congrArg (· + 1) hlength, ?_⟩
    rw [List.map_cons, execAll_cons (exec_crcUpdate b hb), hrun, State.withCrc_withCrc]
    rfl

/-- CRC.CLEAR, one CRC.UPDATE a byte and CRC.READ: CRC_REG holds the fold of the bytes and the last completion their
CRC (R102 to R105). -/
theorem execAll_crcRun {s : State} (bytes : List Byte) (hb : s.opBusy = false) :
    ∃ answers : List Completion, answers.length = bytes.length + 1 ∧
      execAll (.crcClear :: bytes.map Instr.crcUpdate ++ [.crcRead]) s =
        .next (s.withCrc (crcFold s.cfg s.cfg.crcInit bytes) (answers ++ [.ok (.crc (crc16 s.cfg bytes))])) := by
  obtain ⟨answers, hlength, hupdates⟩ := execAll_crcUpdates (s := s.withCrc s.cfg.crcInit [.ok .none]) bytes hb
  refine ⟨.ok .none :: answers, congrArg (· + 1) hlength, ?_⟩
  rw [List.cons_append, execAll_cons (exec_crcClear hb), execAll_append hupdates, State.withCrc_withCrc,
    execAll_cons (exec_crcRead (s := s.withCrc _ _) hb), State.withCrc_withCrc]
  rfl

/-- Settles O5, from the run of the three operations. -/
theorem crcOperationsComputeCrc16 : Obligations.CrcOperationsComputeCrc16 := by
  intro s bytes hb
  obtain ⟨answers, hlength, hrun⟩ := execAll_crcRun bytes hb
  refine ⟨_, hrun, rfl, rfl, ?length, List.take_left, ?last⟩
  case length => simp [State.withCrc, hlength, Nat.add_assoc]
  case last => simp [State.withCrc]

/-- Settles O3: the example is the check value, which the run of the three operations delivers. -/
theorem crcReadReturnsFinishedCrc : Obligations.CrcReadReturnsFinishedCrc := by
  refine ⟨fun _ hb => exec_crcRead hb, fun s hb hcfg => ?_⟩
  obtain ⟨answers, -, hrun⟩ :=
    execAll_crcRun [0x31#8, 0x32#8, 0x33#8, 0x34#8, 0x35#8, 0x36#8, 0x37#8, 0x38#8, 0x39#8] hb
  rw [hcfg, crc16_checkValue] at hrun
  exact ⟨_, hrun, by simp [State.withCrc]⟩

/-! ### The checksum of a frame (R106, R107) -/

/-- The frame that the checksum covers: its two checksum bytes are zero. -/
theorem frameLayout_zeroChecksum (cfg : Config) (sender receiver : Byte) (body : List Byte) :
    frameLayout cfg sender receiver body 0#16 cfg.pEnd =
      [cfg.pStart, sender, receiver, BitVec.ofNat 8 (body.length / 256), BitVec.ofNat 8 body.length] ++ body
        ++ [0x00#8, 0x00#8] ++ [cfg.pEnd] := by
  have hhi : hiByte 0#16 = 0x00#8 := by decide
  have hlo : loByte 0#16 = 0x00#8 := by decide
  rw [frameLayout, hiByte_lenField, loByte_lenField, hhi, hlo, List.append_assoc _ [0x00#8, 0x00#8] [cfg.pEnd]]
  rfl

/-- Settles O6: the fold of the frame's bytes goes through its three parts. -/
theorem frameCrcCoversWholeFrame : Obligations.FrameCrcCoversWholeFrame := by
  constructor
  · intro cfg sender receiver body _
    rw [frameCrc, frameLayout_zeroChecksum]
  · intro cfg sender receiver body _
    rw [frameCrc, frameLayout_zeroChecksum, crc16, crcFold_append, crcFold_append, crcFold_append]
    rfl

/-! ### A difference in the register is never lost (R108)

The shift is linear, so two runs differ by a run from their difference. The constant of CRC_ALGO sets a highest bit
(0x8408 bit 15, 0x1021 bit 12). A difference that lies at or below it stays there and does not vanish: a set bit 0
leaves as it sets the highest bit, and any other bit moves down by one. -/

/-- The highest bit that the constant of CRC_ALGO sets. -/
def crcTopBit : CrcAlgo → Nat
  | .reflected => 15
  | .raw => 12

theorem crcConst_topBit (algo : CrcAlgo) : (crcConst algo).getLsbD (crcTopBit algo) = true := by
  cases algo <;> decide

theorem crcConst_above {algo : CrcAlgo} {i : Nat} (hi : crcTopBit algo < i) : (crcConst algo).getLsbD i = false := by
  have hlt : (crcConst algo).toNat < 2 ^ (crcTopBit algo + 1) := by cases algo <;> decide
  exact Nat.testBit_eq_false_of_lt (hlt.trans_le (Nat.pow_le_pow_right Nat.two_pos hi))

/-- A difference of two registers that no shift loses: not zero, and nothing above the constant's highest bit. -/
def LiveDifference (algo : CrcAlgo) (d : Word) : Prop :=
  d ≠ 0#16 ∧ ∀ i, crcTopBit algo < i → d.getLsbD i = false

theorem getLsbD_crcShift (k c : Word) (i : Nat) :
    (crcShift k c).getLsbD i = (c.getLsbD (i + 1) ^^ (c.getLsbD 0 && k.getLsbD i)) := by
  cases h : c.getLsbD 0 <;> rw [crcShift, h] <;> simp [Nat.add_comm 1 i]

theorem ne_zero_of_getLsbD {w : Nat} {x : BitVec w} {i : Nat} (h : x.getLsbD i = true) : x ≠ 0#w := by
  rintro rfl
  simp at h

theorem LiveDifference.crcShift {algo : CrcAlgo} {d : Word} (h : LiveDifference algo d) :
    LiveDifference algo (crcShift (crcConst algo) d) := by
  obtain ⟨hne, habove⟩ := h
  constructor
  · cases hbit : d.getLsbD 0 with
    | true =>
      refine ne_zero_of_getLsbD (i := crcTopBit algo) ?_
      rw [getLsbD_crcShift, habove _ (Nat.lt_succ_self _), hbit, crcConst_topBit]
      rfl
    | false =>
      obtain ⟨j, hj⟩ : ∃ j, d.getLsbD j = true := by
        by_contra hnone
        exact hne (BitVec.eq_of_getLsbD_eq fun i _ => by simpa using not_exists.1 hnone i)
      cases j with
      | zero => exact absurd (hbit.symm.trans hj) Bool.false_ne_true
      | succ j =>
        refine ne_zero_of_getLsbD (i := j) ?_
        rw [getLsbD_crcShift, hj, hbit]
        rfl
  · intro i hi
    rw [getLsbD_crcShift, habove (i + 1) (Nat.lt_succ_of_lt hi), crcConst_above hi, Bool.and_false]
    rfl

theorem LiveDifference.crcShifts {algo : CrcAlgo} {d : Word} (h : LiveDifference algo d) (n : Nat) :
    LiveDifference algo (crcShifts (crcConst algo) n d) := by
  induction n generalizing d with
  | zero => exact h
  | succ n ih => exact ih h.crcShift

/-- Two different bytes make a live difference: it lies in the register's low byte. -/
theorem liveDifference_byte (algo : CrcAlgo) {e : Byte} (he : e ≠ 0#8) : LiveDifference algo (e.setWidth 16) := by
  constructor
  · exact fun h => he (by simpa using congrArg (BitVec.setWidth 8) h)
  · intro i hi
    have h8 : 8 ≤ i := by cases algo <;> simp only [crcTopBit] at hi <;> omega
    simp [BitVec.getLsbD_setWidth, BitVec.getLsbD_of_ge e i h8]

/-- The difference that one byte leaves is eight shifts of the differences in the register and the byte. -/
theorem crcStep_xor_crcStep (cfg : Config) (c c' : Word) (b b' : Byte) :
    crcStep cfg c b ^^^ crcStep cfg c' b' =
      crcShifts (crcConst cfg.crcAlgo) 8 ((c ^^^ c') ^^^ (b ^^^ b').setWidth 16) := by
  rw [crcStep, crcStep, ← crcShifts_xor, BitVec.setWidth_xor]
  congr 1
  ac_rfl

/-- The same bytes keep a live difference. -/
theorem LiveDifference.crcFold {cfg : Config} {c c' : Word} (h : LiveDifference cfg.crcAlgo (c ^^^ c'))
    (bytes : List Byte) : LiveDifference cfg.crcAlgo (crcFold cfg c bytes ^^^ crcFold cfg c' bytes) := by
  induction bytes generalizing c c' with
  | nil => exact h
  | cons b bytes ih =>
    refine ih ?_
    rw [crcStep_xor_crcStep]
    simpa using h.crcShifts 8

/-- Different bytes folded into one register make a live difference. -/
theorem liveDifference_crcStep (cfg : Config) (c : Word) {b b' : Byte} (hb : b ≠ b') :
    LiveDifference cfg.crcAlgo (crcStep cfg c b ^^^ crcStep cfg c b') := by
  rw [crcStep_xor_crcStep, BitVec.xor_self, BitVec.zero_xor]
  exact (liveDifference_byte _ (mt BitVec.xor_eq_zero_iff.1 hb)).crcShifts 8

/-- The fold goes through the bytes before a place, the byte there, and the bytes after it. -/
theorem crcFold_set (cfg : Config) (c : Word) {bytes : List Byte} {i : Nat} (hi : i < bytes.length) (b : Byte) :
    crcFold cfg c (bytes.set i b) =
      crcFold cfg (crcStep cfg (crcFold cfg c (bytes.take i)) b) (bytes.drop (i + 1)) := by
  rw [List.set_eq_take_append_cons_drop, if_pos hi, crcFold_append, crcFold_cons]

/-- One wrong byte changes the CRC. -/
theorem crc16_set_ne (cfg : Config) {bytes : List Byte} {i : Nat} (hi : i < bytes.length) {b : Byte}
    (hb : b ≠ bytes[i]) : crc16 cfg (bytes.set i b) ≠ crc16 cfg bytes := by
  intro heq
  have hlive := (liveDifference_crcStep cfg (crcFold cfg cfg.crcInit (bytes.take i)) hb).crcFold (bytes.drop (i + 1))
  rw [← crcFold_set _ _ hi, ← crcFold_set _ _ hi, List.set_getElem_self] at hlive
  exact hlive.1 (BitVec.xor_eq_zero_iff.2 ((BitVec.xor_left_inj _).1 heq))

/-- One wrong byte outside the checksum bytes changes the frame's CRC. -/
theorem crcOfFrameBytes_set_ne (cfg : Config) {frame : List Byte} {i : Nat} (hi : i < frame.length)
    (hchkHi : i ≠ frame.length - 3) (hchkLo : i ≠ frame.length - 2) {b : Byte} (hb : b ≠ frame[i]) :
    crcOfFrameBytes cfg (frame.set i b) ≠ crcOfFrameBytes cfg frame := by
  rw [crcOfFrameBytes, List.length_set, List.set_comm _ _ hchkHi, List.set_comm _ _ hchkLo]
  refine crc16_set_ne cfg (by simpa using hi) ?_
  rwa [List.getElem_set_ne hchkLo.symm, List.getElem_set_ne hchkHi.symm]

/-- Settles O7: the flipped bit makes the byte another one. -/
theorem singleBitErrorChangesFrameCrc : Obligations.SingleBitErrorChangesFrameCrc := by
  intro cfg frame offset bit _ hoffset hbit hchkHi hchkLo
  refine crcOfFrameBytes_set_ne cfg hoffset hchkHi hchkLo ?_
  have hbyte : byteAt frame offset = frame[offset] := List.getD_eq_getElem _ _ hoffset
  have hmask : 1#8 <<< bit ≠ 0#8 := ne_zero_of_getLsbD (i := bit) (by simp [hbit])
  rw [hbyte]
  exact fun heq => hmask (by simpa using heq)

end Sys2Proof.Machine
end

section
/-! The framer's statements (41_framer.md): what FRAME.ENC emits and returns, and that FRAME.DEC takes every emitted
frame and returns its fields. -/

namespace Sys2Proof.Machine

/-! ### FRAME.ENC (R120) -/

/-- FRAME.ENC of a body that LEN can declare, accepted by the block. -/
theorem exec_frameEnc {s : State} (sender receiver : Byte) {body : List Byte} (hb : s.opBusy = false)
    (hbody : body.length ≤ maxBody) :
    exec (.frameEnc sender receiver body) s =
      .next ((s.emit (encodedFrame s.cfg sender receiver body)).complete
        (.frame (encodedFrame s.cfg sender receiver body))) := by
  rw [exec_free rfl hb, hostEffect, if_neg hbody.not_gt]

/-- FRAME.ENC of a body that LEN cannot declare. -/
theorem exec_frameEnc_tooLong {s : State} (sender receiver : Byte) {body : List Byte} (hb : s.opBusy = false)
    (hbody : maxBody < body.length) :
    exec (.frameEnc sender receiver body) s = .next (s.raise (.frameBodyTooLong body.length)) := by
  rw [exec_free rfl hb, hostEffect, if_pos hbody]

/-- The bytes that R120 lists: LEN is the body's length, high byte first. -/
theorem encodedFrame_bytes (cfg : Config) (sender receiver : Byte) (body : List Byte) :
    encodedFrame cfg sender receiver body =
      [cfg.pStart, sender, receiver, BitVec.ofNat 8 (body.length / 256), BitVec.ofNat 8 body.length] ++ body ++
        [hiByte (frameCrc cfg sender receiver body), loByte (frameCrc cfg sender receiver body)] ++ [cfg.pEnd] := by
  rw [encodedFrame, frameLayout, hiByte_lenField, loByte_lenField, List.append_assoc _ [_, _] [cfg.pEnd]]
  rfl

/-- The example of R120. -/
theorem encodedFrame_example : encodedFrame Config.reference 0x12#8 0x34#8 [] =
    [0x02#8, 0x12#8, 0x34#8, 0x00#8, 0x00#8, 0x6C#8, 0xFA#8, 0x03#8] := by
  decide +kernel

/-- Settles O8, with the frame written out byte by byte. -/
theorem frameEncEmitsAndReturnsFrame : Obligations.FrameEncEmitsAndReturnsFrame := by
  refine ⟨fun s sender receiver body hb hbody => ?_, fun s sender receiver body hb hbody => ?_, encodedFrame_example⟩
  · rw [exec_frameEnc sender receiver hb hbody, encodedFrame_bytes]
    rfl
  · exact exec_frameEnc_tooLong sender receiver hb hbody

/-! ### FRAME.DEC of an emitted frame (R123) -/

/-- LEN stands at offsets 3 and 4. -/
theorem encodedFrame_len (cfg : Config) (sender receiver : Byte) (body : List Byte) :
    (encodedFrame cfg sender receiver body)[3]? = some (BitVec.ofNat 8 (body.length / 256)) ∧
      (encodedFrame cfg sender receiver body)[4]? = some (BitVec.ofNat 8 body.length) := by
  rw [encodedFrame_bytes]
  exact ⟨rfl, rfl⟩

/-- The checksum stands right after the body. -/
theorem encodedFrame_checksum (cfg : Config) (sender receiver : Byte) (body : List Byte) :
    (encodedFrame cfg sender receiver body)[5 + body.length]? =
        some (hiByte (frameCrc cfg sender receiver body)) ∧
      (encodedFrame cfg sender receiver body)[6 + body.length]? =
        some (loByte (frameCrc cfg sender receiver body)) := by
  have htail (k : Nat) := frameLayout_tail cfg sender receiver body (frameCrc cfg sender receiver body) cfg.pEnd k
  refine ⟨htail 0, ?_⟩
  rw [Nat.add_right_comm 5 1 body.length]
  exact htail 1

/-- A frame with its own END and its own checksum passes R150's checks at a recipient that accepts it. -/
theorem frameVerdict_accepted (cfg : Config) {own receiver : Byte} (sender : Byte) (body : List Byte)
    (haccept : own = receiver ∨ receiver = broadcastId) :
    frameVerdict cfg own sender receiver body (frameCrc cfg sender receiver body) cfg.pEnd =
      .ok (.packet ⟨sender, receiver, body, frameCrc cfg sender receiver body⟩) := by
  have hrecipient : ¬(receiver ≠ own ∧ receiver ≠ broadcastId) := fun ⟨hown, hbroadcast⟩ =>
    haccept.elim (hown ·.symm) hbroadcast
  rw [frameVerdict, if_neg (not_not_intro rfl), if_neg (not_not_intro rfl), if_neg hrecipient]

/-- Settles O10: FRAME.DEC is issued, the deframer reads the frame's layout by its length, and R150's checks pass. -/
theorem encodedFrameDecodesToItsFields : Obligations.EncodedFrameDecodesToItsFields := by
  intro s sender receiver own body rest later hw hb hbody haccept hin ha
  have henc := exec_frameEnc sender receiver hb hbody
  have hdec : exec (.frameDec own) s = .next (s.beginDecode own) := exec_free rfl hb
  have hrun := run_frameLayout (s := s.beginDecode own) hw rfl hbody hin ha
  have hverdict := frameVerdict_accepted s.cfg sender body haccept
  exact ⟨⟨_, henc, rfl⟩, encodedFrame_len .., encodedFrame_checksum .., s.beginDecode own, _, hdec, hrun,
    congrArg (s.completions ++ [·]) hverdict, rfl, rfl, rfl, rfl⟩

end Sys2Proof.Machine
end

section
/-! The deframer's statements (42_deframer.md): the issue of FRAME.DEC, one rule per state, TIMEOUT, what a decode can end
with, and the flipped bits that it detects. -/

namespace Sys2Proof.Machine

/-! ### The issue of FRAME.DEC (R140) -/

/-- Settles O11: `State.beginDecode` is what FRAME.DEC does to a free block. -/
theorem frameDecIssues : Obligations.FrameDecIssues := fun _ _ hb => exec_free rfl hb

/-! ### One byte, by the state that takes it (R141 to R149) -/

/-- Settles O12: whatever the rule of the state does, it leaves RX_IN as the taken byte left it. -/
theorem deframerStepTakesOneByte : Obligations.DeframerStepTakesOneByte := by
  refine ⟨?disabled, fun s b rest hs hin => deframeStep_byte hs hin, ?taken⟩
  case disabled =>
    rintro s (hidle | hempty)
    · exact deframeStep_idle hidle
    · exact deframeStep_empty hempty
  case taken =>
    intro s t b rest hs hin hstep
    rw [deframeStep_byte hs hin] at hstep
    obtain ⟨-, -, hrest, -⟩ := (deframeByte_cases (s := { s with rxIn := rest }) hs hstep).frame
    exact hrest

/-- The deframer step in a known state, which picks the rule. -/
theorem deframeStep_in {s : State} {r : RxState} {b : Byte} {rest : List Byte} (hs : s.rxState = r) (hr : r ≠ .idle)
    (hin : s.rxIn = b :: rest) : deframeStep s = deframeByte b { s with rxIn := rest, rxState := r } := by
  subst hs
  exact deframeStep_byte hr hin

/-- The AwaitStart rule changes RX_STATE alone (R141). -/
theorem rxAwaitStart_eq (b : Byte) (s : State) :
    rxAwaitStart b s = { s with rxState := if b = s.cfg.pStart then .senderId else .awaitStart } := by
  by_cases hb : b = s.cfg.pStart
  · rw [rxAwaitStart, if_pos hb, if_pos hb]
  · rw [rxAwaitStart, if_neg hb, if_neg hb]

/-- Settles O13: the state picks the rule, and the rule writes its register. -/
theorem deframerHeaderBytes : Obligations.DeframerHeaderBytes :=
  ⟨fun _ b _ hs hin => (deframeStep_in hs nofun hin).trans (congrArg Host.Outcome.next (rxAwaitStart_eq b _)),
    fun _ _ _ hs hin => deframeStep_in hs nofun hin,
    fun _ _ _ hs hin => deframeStep_in hs nofun hin,
    fun _ _ _ hs hin => deframeStep_in hs nofun hin,
    fun _ _ _ hs hin => deframeStep_in hs nofun hin⟩

/-- Settles O14: the cell RX_COUNT exists, and a write to it is read back there and nowhere else. -/
theorem deframerBodyByte : Obligations.DeframerBodyByte := by
  intro s b rest hs hin hcell
  have hstep := (deframeStep_in hs nofun hin).trans (if_pos hcell)
  exact ⟨_, hstep, rfl, memRead_memWrite_same s.rxBody s.rxCount.toNat b,
    fun _ ha => memRead_memWrite_other s.rxBody b ha⟩

/-- Settles O15: the state picks the rule, and the rule writes its register. -/
theorem deframerChecksumBytes : Obligations.DeframerChecksumBytes :=
  ⟨fun _ _ _ hs hin => deframeStep_in hs nofun hin, fun _ _ _ hs hin => deframeStep_in hs nofun hin⟩

/-! ### The verdict of AwaitEnd (R150) -/

theorem frameVerdict_malformed (cfg : Config) (own sender receiver : Byte) (body : List Byte) (checksum : Word)
    {endByte : Byte} (hend : endByte ≠ cfg.pEnd) :
    frameVerdict cfg own sender receiver body checksum endByte = .err (.malformedFrame endByte) :=
  if_pos hend

theorem frameVerdict_checksumMismatch {cfg : Config} (own : Byte) {sender receiver : Byte} {body : List Byte}
    {checksum : Word} (hcrc : frameCrc cfg sender receiver body ≠ checksum) :
    frameVerdict cfg own sender receiver body checksum cfg.pEnd =
      .err (.checksumMismatch checksum (frameCrc cfg sender receiver body)) := by
  rw [frameVerdict, if_neg (not_not_intro rfl), if_pos hcrc]

theorem frameVerdict_recipientMismatch (cfg : Config) {own receiver : Byte} (sender : Byte) (body : List Byte)
    (hown : receiver ≠ own) (hbroadcast : receiver ≠ broadcastId) :
    frameVerdict cfg own sender receiver body (frameCrc cfg sender receiver body) cfg.pEnd =
      .err (.recipientMismatch receiver) := by
  rw [frameVerdict, if_neg (not_not_intro rfl), if_neg (not_not_intro rfl), if_pos ⟨hown, hbroadcast⟩]

/-- With the END byte in place, one of three verdicts; the Packet's fields are those received, it carries its own
checksum and its receiver is accepted. -/
theorem frameVerdict_cases (cfg : Config) (own sender receiver : Byte) (body : List Byte) (checksum : Word) :
    (∃ computed, frameVerdict cfg own sender receiver body checksum cfg.pEnd =
        .err (.checksumMismatch checksum computed)) ∨
      frameVerdict cfg own sender receiver body checksum cfg.pEnd = .err (.recipientMismatch receiver) ∨
      (checksum = frameCrc cfg sender receiver body ∧ (receiver = own ∨ receiver = broadcastId) ∧
        frameVerdict cfg own sender receiver body checksum cfg.pEnd =
          .ok (.packet ⟨sender, receiver, body, checksum⟩)) := by
  by_cases hcrc : frameCrc cfg sender receiver body = checksum
  case neg => exact .inl ⟨_, frameVerdict_checksumMismatch own hcrc⟩
  case pos =>
    subst hcrc
    by_cases haccept : receiver = own ∨ receiver = broadcastId
    · exact .inr (.inr ⟨rfl, haccept, frameVerdict_accepted cfg sender body (haccept.imp_left Eq.symm)⟩)
    · obtain ⟨hown, hbroadcast⟩ := not_or.1 haccept
      exact .inr (.inl (frameVerdict_recipientMismatch cfg sender body hown hbroadcast))

/-- Settles O16: RX_BODY reads as the body, so the step delivers R150's verdict on it. -/
theorem awaitEndChecksInOrder : Obligations.AwaitEndChecksInOrder := by
  intro s b rest body hs hin hlength hcells
  have hread : memReadRange s.rxBody 0 s.rxLen.toNat = .ok body :=
    (memReadRange_ok _ _ _ _).2 ⟨hlength, fun i hi => by rw [Nat.zero_add, hcells i hi, List.getElem?_eq_getElem hi]⟩
  have hstep := (deframeStep_in hs nofun hin).trans
    (rxAwaitEnd_verdict (s := { s with rxIn := rest, rxState := .awaitEnd }) hread b)
  refine ⟨_, hstep, rfl, rfl, rfl, rfl, rfl, rfl, rfl, rfl, ?malformed, ?checksum, ?recipient, ?packet⟩
  all_goals rw [State.deliver_completions]
  case malformed =>
    intro hend
    exact congrArg (s.completions ++ [·]) (frameVerdict_malformed _ _ _ _ _ _ hend)
  case checksum =>
    rintro rfl hcrc
    exact congrArg (s.completions ++ [·]) (frameVerdict_checksumMismatch _ hcrc)
  case recipient =>
    rintro rfl hcrc hown hbroadcast
    rw [← hcrc]
    exact congrArg (s.completions ++ [·]) (frameVerdict_recipientMismatch _ _ _ hown hbroadcast)
  case packet =>
    rintro rfl hcrc haccept
    rw [← hcrc]
    exact congrArg (s.completions ++ [·]) (frameVerdict_accepted _ _ _ (haccept.imp_left Eq.symm))

/-! ### Noise before START (R141) -/

theorem State.reading_eq_self {s : State} {r : RxState} {bytes rest : List Byte} {later : List Turn}
    (hs : s.rxState = r) (hin : s.rxIn = bytes ++ rest) (ha : s.agenda = List.replicate bytes.length .deframer ++ later) :
    s.reading r bytes rest later = s := by
  rw [State.reading, ← hs, ← hin, ← ha]

theorem deframeByte_noise {s : State} {b : Byte} (hb : b ≠ s.cfg.pStart) (bytes rest : List Byte) (later : List Turn) :
    deframeByte b (s.reading .awaitStart bytes rest later) = .next (s.reading .awaitStart bytes rest later) :=
  congrArg Host.Outcome.next (if_neg hb)

theorem run_noise {s : State} {noise : List Byte} (rest : List Byte) (later : List Turn) (hw : s.cfg.wf = true)
    (hnoise : ∀ b ∈ noise, b ≠ s.cfg.pStart) :
    run noise.length (s.reading .awaitStart noise rest later) = .next (s.reading .awaitStart [] rest later) := by
  induction noise with
  | nil => rfl
  | cons b noise ih =>
    obtain ⟨hb, hnoise⟩ := List.forall_mem_cons.1 hnoise
    calc run (b :: noise).length (s.reading .awaitStart (b :: noise) rest later)
        = run noise.length (s.reading .awaitStart noise rest later) :=
          run_reading s s hw nofun (deframeByte_noise hb noise rest later)
      _ = .next (s.reading .awaitStart [] rest later) := ih hnoise

/-- Settles O18, by induction on the noise. -/
theorem noiseBeforeStartIsDiscarded : Obligations.NoiseBeforeStartIsDiscarded := by
  intro s noise rest later hw hs hnoise hin ha
  have hrun := run_noise rest later hw hnoise
  rw [State.reading_eq_self hs hin ha, State.reading, ← hs] at hrun
  exact hrun

/-! ### TIMEOUT (R152) -/

theorem timeoutEvent_idle {s : State} (h : s.rxState = .idle) : timeoutEvent s = s := if_pos h

theorem timeoutEvent_decoding {s : State} (h : s.rxState ≠ .idle) :
    timeoutEvent s = s.endDecode.raise .timeout :=
  if_neg h

/-- Settles O19: TIMER's move is `timeoutEvent`. -/
theorem timeoutEndsDecode : Obligations.TimeoutEndsDecode := by
  refine ⟨fun s later hw ha hs => ?decoding, fun s later hw ha hs => ?idle⟩
  case decoding =>
    have hstep : step s = .next ((State.endDecode { s with agenda := later }).raise .timeout) :=
      (step_agenda hw ha).trans (congrArg Host.Outcome.next (timeoutEvent_decoding hs))
    exact ⟨_, hstep, rfl, rfl, rfl, rfl, rfl, rfl, rfl, rfl, rfl⟩
  case idle => exact (step_agenda hw ha).trans (congrArg Host.Outcome.next (timeoutEvent_idle hs))

/-! ### What a decode ends with (R151, R156) -/

/-- A byte delivers nothing, or it ends the decode in AwaitEnd. -/
theorem ByteEffect.completions_cases {b : Byte} {s t : State} (he : ByteEffect b s t) :
    t.completions = s.completions ∨
      (s.rxState = .awaitEnd ∧ b ≠ s.cfg.pEnd ∧ t = s.endDecode.deliver (.err (.malformedFrame b))) ∨
      ∃ body, memReadRange s.rxBody 0 s.rxLen.toNat = .ok body ∧
        t = s.endDecode.deliver (frameVerdict s.cfg s.rxOwnId s.rxSender s.rxReceiver body s.rxChk s.cfg.pEnd) := by
  cases he with
  | awaitStart _ => rw [rxAwaitStart_eq]; exact .inl rfl
  | senderId _ => exact .inl rfl
  | receiverId _ => exact .inl rfl
  | lenHi _ => exact .inl rfl
  | lenLo _ => exact .inl rfl
  | body _ _ => exact .inl rfl
  | checksumHi _ => exact .inl rfl
  | checksumLo _ => exact .inl rfl
  | malformed hs hb => exact .inr (.inl ⟨hs, hb, rfl⟩)
  | ended _ hb body hread => exact .inr (.inr ⟨body, hread, by rw [hb]⟩)

/-- An instruction delivers no Packet: FRAME.DEC's comes from a later deframer step. -/
theorem exec_no_packet {i : Instr} {s t : State} (h : exec i s = .next t) (p : Packet) :
    t.completions ≠ s.completions ++ [.ok (.packet p)] := by
  rcases exec_cases h with ⟨-, -, rfl⟩ | ⟨-, -, heff⟩ | ⟨-, bytes, rfl⟩
  · simp
  · cases heff with
    | crc w q _ hq => simpa using hq p
    | answer c _ hc => simpa using hc p
    | emitted bytes _ => simp
    | decode ownId _ => simp
  · simp

/-- A Packet comes from AwaitEnd: it is the body read from RX_BODY, under R150's verdict. -/
theorem runTurn_packet {turn : Turn} {s t : State} {p : Packet} (h : runTurn turn s = .next t)
    (hp : t.completions = s.completions ++ [.ok (.packet p)]) :
    ∃ body, memReadRange s.rxBody 0 s.rxLen.toNat = .ok body ∧
      frameVerdict s.cfg s.rxOwnId s.rxSender s.rxReceiver body s.rxChk s.cfg.pEnd = .ok (.packet p) := by
  rcases runTurn_cases h with rfl | ⟨_, _, _, -, -, -, -, he⟩ | ⟨_, _, -, -, -, he⟩ | ⟨-, -, rfl⟩ | ⟨_, -, rfl⟩ |
    ⟨_, -, rfl⟩ | ⟨-, rfl⟩
  case inr.inl => exact absurd hp (exec_no_packet he p)
  case inr.inr.inl =>
    rcases he.completions_cases with hsame | ⟨-, -, rfl⟩ | ⟨body, hread, rfl⟩
    · simp [hsame] at hp
    · simp at hp
    · exact ⟨body, hread, by simpa using hp⟩
  all_goals simp at hp

/-- Settles O20: the verdict is a Packet only for a frame with its own checksum and an accepted receiver. -/
theorem deliveredPacketInvariants : Obligations.DeliveredPacketInvariants := by
  intro s t p hinv hstep hp
  obtain ⟨turn, later, -, heq⟩ := step_eq_runTurn hinv.config
  obtain ⟨body, hread, hverdict⟩ := runTurn_packet (heq.symm.trans hstep) hp
  obtain ⟨hlength, -⟩ := (memReadRange_ok _ _ _ _).1 hread
  rcases frameVerdict_cases s.cfg s.rxOwnId s.rxSender s.rxReceiver body s.rxChk with ⟨_, h⟩ | h | ⟨hcrc, haccept, h⟩
  · cases h.symm.trans hverdict
  · cases h.symm.trans hverdict
  · cases h.symm.trans hverdict
    exact ⟨hlength, hcrc, haccept⟩

/-- While the block is busy a move delivers nothing, or it ends the decode: with TIMEOUT, or in AwaitEnd with
MALFORMED_FRAME for a wrong END byte or with R150's verdict on a right one. -/
theorem runTurn_busy_completions {turn : Turn} {s t : State} (hb : s.opBusy = true) (h : runTurn turn s = .next t) :
    t.completions = s.completions ∨
      ∃ c, t.completions = s.completions ++ [c] ∧ t.opBusy = false ∧ t.rxState = .idle ∧
        (c = .err .timeout ∨
          (∃ b, c = .err (.malformedFrame b) ∧ s.rxState = .awaitEnd ∧ b ≠ s.cfg.pEnd ∧ s.rxIn.head? = some b) ∨
          ∃ body, c = frameVerdict s.cfg s.rxOwnId s.rxSender s.rxReceiver body s.rxChk s.cfg.pEnd) := by
  rcases runTurn_cases h with rfl | ⟨_, _, _, -, -, -, -, he⟩ | ⟨b, rest, -, -, hin, he⟩ | ⟨-, -, rfl⟩ | ⟨_, -, rfl⟩ |
    ⟨_, -, rfl⟩ | ⟨-, rfl⟩
  case inr.inl =>
    rcases exec_cases he with ⟨-, -, rfl⟩ | ⟨-, hfree, -⟩ | ⟨-, bytes, rfl⟩
    · exact .inl rfl
    · exact absurd (hb.symm.trans hfree) nofun
    · exact .inl rfl
  case inr.inr.inl =>
    rcases he.completions_cases with hsame | ⟨hs, hend, rfl⟩ | ⟨body, -, rfl⟩
    · exact .inl hsame
    · exact .inr ⟨_, rfl, rfl, rfl, .inr (.inl ⟨b, rfl, hs, hend, by rw [hin]; rfl⟩)⟩
    · exact .inr ⟨_, rfl, rfl, rfl, .inr (.inr ⟨body, rfl⟩)⟩
  case inr.inr.inr.inl => exact .inr ⟨_, rfl, rfl, rfl, .inl rfl⟩
  all_goals exact .inl rfl

/-- Settles O21: the verdict on a right END byte is one of the three others, and none of them is MALFORMED_FRAME. -/
theorem decodeHasFiveOutcomes : Obligations.DecodeHasFiveOutcomes := by
  intro s t hinv hb hstep hdelivered
  obtain ⟨turn, later, -, heq⟩ := step_eq_runTurn hinv.config
  obtain ⟨c, hc, hfree, hidle, hcause⟩ :=
    (runTurn_busy_completions (s := { s with agenda := later }) hb (heq.symm.trans hstep)).resolve_left hdelivered
  refine ⟨c, hc, hfree, hidle, ?_⟩
  rcases hcause with rfl | ⟨b, rfl, hs, hend, hhead⟩ | ⟨body, rfl⟩
  · exact ⟨.inr (.inl rfl), nofun⟩
  · refine ⟨.inr (.inr (.inl ⟨b, rfl⟩)), fun b' hb' => ?_⟩
    cases hb'
    exact ⟨hs, hend, hhead⟩
  · rcases frameVerdict_cases s.cfg s.rxOwnId s.rxSender s.rxReceiver body s.rxChk with ⟨_, h⟩ | h | ⟨-, -, h⟩
    · rw [h]; exact ⟨.inr (.inr (.inr (.inl ⟨_, _, rfl⟩))), nofun⟩
    · rw [h]; exact ⟨.inr (.inr (.inr (.inr ⟨_, rfl⟩))), nofun⟩
    · rw [h]; exact ⟨.inl ⟨_, rfl⟩, nofun⟩

/-! ### One byte of a frame replaced (30_encoding.md R70)

A byte outside START, LEN and END that is replaced leaves the layout of a frame, of other fields. -/

section
variable (c : Config) (sender receiver : Byte) (body : List Byte) (checksum : Word) (endByte b : Byte)

theorem frameLayout_set_body {i : Nat} (hi : i < body.length) :
    (frameLayout c sender receiver body checksum endByte).set (5 + i) b =
      frameLayout c sender receiver (body.set i b) checksum endByte := by
  simp [frameLayout, Nat.add_comm 5 i, List.set_append_left _ _ hi, lenField]

/-- The three bytes after the body. -/
theorem frameLayout_set_tail (k : Nat) :
    (frameLayout c sender receiver body checksum endByte).set (5 + body.length + k) b =
      [c.pStart, sender, receiver, hiByte (lenField body), loByte (lenField body)] ++ body ++
        [hiByte checksum, loByte checksum, endByte].set k b := by
  rw [frameLayout, List.set_append_right _ _ (by simp; omega)]
  congr 2
  simp; omega

theorem frameLayout_set_checksumHi :
    (frameLayout c sender receiver body checksum endByte).set (5 + body.length) b =
      frameLayout c sender receiver body (joinBytes b (loByte checksum)) endByte := by
  rw [← Nat.add_zero (5 + body.length), frameLayout_set_tail, frameLayout, hiByte_joinBytes, loByte_joinBytes]
  rfl

theorem frameLayout_set_checksumLo :
    (frameLayout c sender receiver body checksum endByte).set (6 + body.length) b =
      frameLayout c sender receiver body (joinBytes (hiByte checksum) b) endByte := by
  rw [Nat.add_right_comm 5 1, frameLayout_set_tail, frameLayout, hiByte_joinBytes, loByte_joinBytes]
  rfl

theorem frameLayout_set_end :
    (frameLayout c sender receiver body checksum endByte).set (7 + body.length) b =
      frameLayout c sender receiver body checksum b := by
  rw [Nat.add_right_comm 5 2, frameLayout_set_tail]
  rfl

end

/-- The checksum of a frame is the CRC of its raw bytes, whatever its checksum bytes hold (40_crc.md R106). -/
theorem crcOfFrameBytes_frameLayout (cfg : Config) (sender receiver : Byte) (body : List Byte) (checksum : Word) :
    crcOfFrameBytes cfg (frameLayout cfg sender receiver body checksum cfg.pEnd) = frameCrc cfg sender receiver body := by
  have hhi : 8 + body.length - 3 = 5 + body.length := by omega
  have hlo : 8 + body.length - 2 = 6 + body.length := by omega
  have hzero : joinBytes 0#8 0#8 = 0#16 := by decide
  rw [crcOfFrameBytes, frameLayout_length, hhi, hlo, frameLayout_set_checksumHi, frameLayout_set_checksumLo,
    hiByte_joinBytes, hzero, frameCrc]

/-! ### One flipped bit (R157) -/

theorem flipBit_ne {bytes : List Byte} {offset bit : Nat} (hoffset : offset < bytes.length) (hbit : bit < 8) :
    flipBit bytes offset bit ≠ bytes := by
  intro heq
  have hmask : 1#8 <<< bit ≠ 0#8 := ne_zero_of_getLsbD (i := bit) (by simp [hbit])
  have hbyte : byteAt bytes offset ^^^ (1#8 <<< bit) = byteAt bytes offset := by
    have hflipped : byteAt (flipBit bytes offset bit) offset = byteAt bytes offset ^^^ (1#8 <<< bit) := by
      simp [byteAt, flipBit, hoffset]
    rw [← hflipped, heq]
  exact hmask (by simpa using hbyte)

/-- A flipped bit in SENDER_ID, RECEIVER_ID or BODY leaves a frame of other fields with the old checksum. -/
theorem flipBit_field (cfg : Config) (sender receiver : Byte) (body : List Byte) (checksum : Word) {offset : Nat}
    (bit : Nat) (hoffset : offset = 1 ∨ offset = 2 ∨ 5 ≤ offset ∧ offset < 5 + body.length) :
    ∃ sender' receiver' body', body'.length = body.length ∧
      flipBit (frameLayout cfg sender receiver body checksum cfg.pEnd) offset bit =
        frameLayout cfg sender' receiver' body' checksum cfg.pEnd := by
  rcases hoffset with rfl | rfl | ⟨hlow, hhigh⟩
  · exact ⟨_, receiver, body, rfl, rfl⟩
  · exact ⟨sender, _, body, rfl, rfl⟩
  · obtain ⟨i, rfl⟩ := Nat.exists_eq_add_of_le hlow
    exact ⟨sender, receiver, _, List.length_set, frameLayout_set_body _ _ _ _ _ _ _ (Nat.lt_of_add_lt_add_left hhigh)⟩

/-- A flipped bit in the checksum bytes leaves a frame of the same fields with another checksum. -/
theorem flipBit_checksum (cfg : Config) (sender receiver : Byte) (body : List Byte) (checksum : Word) {offset : Nat}
    (bit : Nat) (hoffset : offset = 5 + body.length ∨ offset = 6 + body.length) :
    ∃ checksum', flipBit (frameLayout cfg sender receiver body checksum cfg.pEnd) offset bit =
      frameLayout cfg sender receiver body checksum' cfg.pEnd := by
  rcases hoffset with rfl | rfl
  · exact ⟨_, frameLayout_set_checksumHi ..⟩
  · exact ⟨_, frameLayout_set_checksumLo ..⟩

/-- A flipped bit outside START, LEN and END of an emitted frame leaves a frame of the same length whose checksum is not
its own: in the fields it changes the computed CRC (40_crc.md R108), in the checksum bytes the received one. -/
theorem flipBit_encodedFrame (cfg : Config) (sender receiver : Byte) (body : List Byte) {offset bit : Nat}
    (hbit : bit < 8) (hoffset : offset = 1 ∨ offset = 2 ∨ 5 ≤ offset ∧ offset < 7 + body.length) :
    ∃ sender' receiver' body' checksum', body'.length = body.length ∧
      flipBit (encodedFrame cfg sender receiver body) offset bit =
        frameLayout cfg sender' receiver' body' checksum' cfg.pEnd ∧
      frameCrc cfg sender' receiver' body' ≠ checksum' := by
  have hlength : (encodedFrame cfg sender receiver body).length = 8 + body.length := frameLayout_length ..
  rcases (by omega : (offset = 1 ∨ offset = 2 ∨ 5 ≤ offset ∧ offset < 5 + body.length) ∨
      offset = 5 + body.length ∨ offset = 6 + body.length) with hfield | hchecksum
  case inl =>
    obtain ⟨sender', receiver', body', hbody', hframe⟩ :=
      flipBit_field cfg sender receiver body (frameCrc cfg sender receiver body) bit hfield
    have hcrc := singleBitErrorChangesFrameCrc cfg (encodedFrame cfg sender receiver body) offset bit
      (by omega) (by omega) hbit (by omega) (by omega)
    rw [encodedFrame, hframe, crcOfFrameBytes_frameLayout, crcOfFrameBytes_frameLayout] at hcrc
    exact ⟨sender', receiver', body', _, hbody', hframe, hcrc⟩
  case inr =>
    obtain ⟨checksum', hframe⟩ :=
      flipBit_checksum cfg sender receiver body (frameCrc cfg sender receiver body) bit hchecksum
    refine ⟨sender, receiver, body, checksum', rfl, hframe, ?_⟩
    rintro rfl
    exact flipBit_ne (bytes := encodedFrame cfg sender receiver body) (by omega) hbit hframe

/-- Settles O22: a flipped START is noise, a flipped END is a wrong END byte, and any other flipped bit outside LEN leaves
a frame that fails the checksum before its recipient is looked at. -/
theorem flippedBitIsDetected : Obligations.FlippedBitIsDetected := by
  intro s sender receiver body rest offset bit later hw hs hbody hbit _ hin ha
  have hlength : (encodedFrame s.cfg sender receiver body).length = 8 + body.length := frameLayout_length ..
  have hflipped (h : offset < 8 + body.length) := flipBit_ne (hlength.symm ▸ h) hbit
  refine ⟨?start, ?fields, ?last⟩
  case start =>
    rintro rfl
    have hne : s.cfg.pStart ^^^ (1#8 <<< bit) ≠ s.cfg.pStart := fun heq =>
      hflipped (by omega) (congrArg (· :: (encodedFrame s.cfg sender receiver body).tail) heq)
    have hagenda : s.agenda = List.replicate 1 .deframer ++ (List.replicate (7 + body.length) .deframer ++ later) := by
      rw [ha, ← List.append_assoc, List.replicate_append_replicate, ← Nat.add_assoc]
    have hrun := noiseBeforeStartIsDiscarded s [s.cfg.pStart ^^^ (1#8 <<< bit)] _ _ hw hs (by simpa using hne) hin hagenda
    exact ⟨_, hrun, hs, rfl⟩
  case fields =>
    intro hoffset
    obtain ⟨sender', receiver', body', checksum', hbody', hframe, hcrc⟩ :=
      flipBit_encodedFrame s.cfg sender receiver body hbit hoffset
    rw [hframe] at hin
    rw [← hbody'] at hbody ha ⊢
    exact ⟨_, _, _, run_frameLayout hw hs hbody hin ha, rfl,
      congrArg (s.completions ++ [·]) (frameVerdict_checksumMismatch s.rxOwnId hcrc)⟩
  case last =>
    rintro rfl
    have hframe : flipBit (encodedFrame s.cfg sender receiver body) (7 + body.length) bit = _ := frameLayout_set_end ..
    have hend : byteAt (encodedFrame s.cfg sender receiver body) (7 + body.length) ^^^ (1#8 <<< bit) ≠ s.cfg.pEnd :=
      fun heq => hflipped (by omega) (hframe.trans (by rw [heq, encodedFrame]))
    rw [hframe] at hin
    exact ⟨_, _, run_frameLayout hw hs hbody hin ha, rfl,
      congrArg (s.completions ++ [·]) (frameVerdict_malformed _ _ _ _ _ _ hend)⟩

end Sys2Proof.Machine
end

section
/-! The command encoder's statements (43_command_encoder.md): the body that CMD.ENC of each kind completes with, and
that no such body can be taken for a response. -/

namespace Sys2Proof

theorem Config.requestType_mem (c : Config) (kind : Kind) : c.requestType kind ∈ c.requestTypes := by
  cases kind <;> simp [Config.requestType, Config.requestTypes]

end Sys2Proof

namespace Sys2Proof.Machine

/-! ### No request looks like a response (R185) -/

/-- RSP.DEC answers with a response or an error, never with a body. -/
theorem decodeAnswer_ne_body (cfg : Config) (kind : Kind) (bytes body : List Byte) :
    decodeAnswer cfg kind bytes ≠ .ok (.body body) := by
  unfold decodeAnswer
  split
  · simp
  · split <;> simp

/-- Only the command encoder answers with a body, and its first byte is the request TYPE of the command's kind. -/
theorem hostEffect_body {i : Instr} {s : State} {body : List Byte}
    (h : (hostEffect i s).completions = s.completions ++ [.ok (.body body)]) :
    ∃ kind, body.head? = some (s.cfg.requestType kind) := by
  cases i
  case cmdEncRead | reqRead =>
    obtain rfl : _ = body := by simpa [hostEffect] using h
    exact ⟨.read, rfl⟩
  case cmdEncWrite | reqWrite =>
    obtain rfl : _ = body := by simpa [hostEffect] using h
    exact ⟨.write, rfl⟩
  case cmdEncToggle | reqToggle =>
    obtain rfl : _ = body := by simpa [hostEffect] using h
    exact ⟨.toggle, rfl⟩
  case cmdEncI2cWrite address data stop | reqI2cWrite address data stop =>
    have hanswer : i2cWriteAnswer s.cfg address data stop = .ok (.body body) := by simpa [hostEffect] using h
    rcases Nat.lt_or_ge maxI2cData data.length with hlong | hfits
    · cases (i2cWriteAnswer_tooLong s.cfg address stop hlong).symm.trans hanswer
    · cases (i2cWriteAnswer_fits s.cfg address stop hfits).symm.trans hanswer
      exact ⟨.i2cWrite, rfl⟩
  case rspDecRead | rspDecWrite | rspDecToggle | rspDecI2cWrite | rspRead | rspWrite | rspToggle | rspI2cWrite =>
    simp [hostEffect, decodeAnswer_ne_body] at h
  case frameEnc =>
    simp only [hostEffect] at h
    split at h <;> simp at h
  all_goals simp [hostEffect] at h

theorem exec_body {i : Instr} {s t : State} {body : List Byte} (h : exec i s = .next t)
    (hbody : t.completions = s.completions ++ [.ok (.body body)]) :
    ∃ kind, body.head? = some (s.cfg.requestType kind) := by
  rcases exec_cases h with ⟨-, -, rfl⟩ | ⟨hi, hb, -⟩ | ⟨-, bytes, rfl⟩
  · simp at hbody
  · cases (exec_free hi hb).symm.trans h
    exact hostEffect_body hbody
  · simp at hbody

/-- Settles O29: the body begins with a request TYPE, and under a well-formed configuration none is a response TYPE. -/
theorem requestsNeverLookLikeResponses : Obligations.RequestsNeverLookLikeResponses := by
  intro s t i body hw hexec hbody
  obtain ⟨kind, hhead⟩ := exec_body hexec hbody
  have hne : s.cfg.requestType kind ∉ s.cfg.responseTypes :=
    Config.wf_requestNoResponse hw _ (s.cfg.requestType_mem kind)
  refine ⟨_, hhead, ?error, ?response⟩
  case error =>
    intro heq
    exact hne (by simp [heq, Config.responseTypes])
  case response =>
    intro t' ht' heq
    have hresp : t' ||| s.cfg.respTag ∈ s.cfg.requestTypes.map s.cfg.resp := List.mem_map_of_mem ht'
    exact hne (heq ▸ List.mem_append_left [s.cfg.typeError] hresp)

/-! ### The body of each command (R181 to R184) -/

/-- CMD.ENC Read that the block accepts (R181). -/
theorem exec_cmdEncRead {s : State} (pin : Byte) (pullup pulldown analog invert direct : Bool)
    (hb : s.opBusy = false) :
    exec (.cmdEncRead pin pullup pulldown analog invert direct) s =
      .next (s.complete (.body (readBody s.cfg pin pullup pulldown analog invert direct))) :=
  exec_free rfl hb

/-- Settles O24: the example is the rule under the reference configuration. -/
theorem cmdEncReadBuildsBody : Obligations.CmdEncReadBuildsBody := by
  obtain ⟨-, -, -, hflags, -, -⟩ := flagsBytesCarryTheirFields
  refine ⟨fun _ _ _ _ _ _ _ hb => exec_cmdEncRead _ _ _ _ _ _ hb, hflags, ?sample⟩
  intro s hb hc
  have hbody : readBody s.cfg 14#8 true false true false false = [0x01#8, 0x0E#8, 0x05#8] := by rw [hc]; decide
  rw [exec_cmdEncRead _ _ _ _ _ _ hb, hbody]
  rfl

/-- CMD.ENC Write that the block accepts (R182). -/
theorem exec_cmdEncWrite {s : State} (pin : Byte) (value : Word) (analog invert : Bool) (hb : s.opBusy = false) :
    exec (.cmdEncWrite pin value analog invert) s =
      .next (s.complete (.body (writeBody s.cfg pin value analog invert))) :=
  exec_free rfl hb

theorem hiByte_eq_ofNat (v : Word) : hiByte v = BitVec.ofNat 8 (v.toNat / 256) := by
  apply BitVec.eq_of_toNat_eq
  simp [hiByte, Nat.shiftRight_eq_div_pow]

theorem loByte_eq_ofNat (v : Word) : loByte v = BitVec.ofNat 8 v.toNat := by
  apply BitVec.eq_of_toNat_eq
  simp [loByte]

/-- A Write request with no field set has a flags byte of 0, wherever the positions lie. -/
theorem writeFlags_false_false (c : Config) : writeFlags c false false = 0#8 := by
  simp [writeFlags, flagBit]

/-- Settles O25: R182's body in the bytes of its value; the source's example sets no flag. -/
theorem cmdEncWriteBuildsBody : Obligations.CmdEncWriteBuildsBody := by
  obtain ⟨-, -, -, -, hflags, -⟩ := flagsBytesCarryTheirFields
  refine ⟨?rule, hflags, ?sample⟩
  case rule =>
    intro s pin value analog invert hb
    rw [exec_cmdEncWrite _ _ _ _ hb, writeBody, hiByte_eq_ofNat, loByte_eq_ofNat]
    rfl
  case sample =>
    intro s hb
    rw [exec_cmdEncWrite _ _ _ _ hb, writeBody, writeFlags_false_false]
    rfl

/-- Settles O26. -/
theorem cmdEncToggleBuildsBody : Obligations.CmdEncToggleBuildsBody := fun _ _ hb => exec_free rfl hb

/-- CMD.ENC I2CWrite that the block accepts, of data that fits (R184). -/
theorem exec_cmdEncI2cWrite {s : State} (address : Byte) {data : List Byte} (stop : Bool) (hb : s.opBusy = false)
    (hdata : data.length ≤ maxI2cData) :
    exec (.cmdEncI2cWrite address data stop) s = .next (s.complete (.body (i2cBody s.cfg address data stop))) := by
  rw [exec_free rfl hb, hostEffect, i2cWriteAnswer_fits s.cfg address stop hdata]
  rfl

/-- CMD.ENC I2CWrite that the block accepts, of data that does not fit (R184). -/
theorem exec_cmdEncI2cWrite_tooLong {s : State} (address : Byte) {data : List Byte} (stop : Bool)
    (hb : s.opBusy = false) (hdata : maxI2cData < data.length) :
    exec (.cmdEncI2cWrite address data stop) s = .next (s.raise (.encBodyTooLong data.length)) := by
  rw [exec_free rfl hb, hostEffect, i2cWriteAnswer_tooLong s.cfg address stop hdata]
  rfl

/-- Settles O27: the limit of 65532 bytes is `maxI2cData`; the example is the rule under the reference configuration. -/
theorem cmdEncI2cWriteBuildsBody : Obligations.CmdEncI2cWriteBuildsBody := by
  obtain ⟨-, -, -, -, -, hflags⟩ := flagsBytesCarryTheirFields
  refine ⟨fun _ _ _ _ hb hdata => exec_cmdEncI2cWrite _ _ hb hdata,
    fun _ _ _ _ hb hdata => exec_cmdEncI2cWrite_tooLong _ _ hb hdata, hflags, ?sample⟩
  intro s hb hc
  have hbody : i2cBody s.cfg 0x50#8 [0x01#8, 0x02#8] true = [0x04#8, 0x50#8, 0x01#8, 0x01#8, 0x02#8] := by
    rw [hc]; decide
  rw [exec_cmdEncI2cWrite _ _ hb (by decide), hbody]
  rfl

end Sys2Proof.Machine
end

section
/-! The response decoder's statements (44_response_decoder.md): the three tiers of RSP.DEC, what each answers, and that
their order does not matter. -/

namespace Sys2Proof.Machine

/-! ### The three tiers (R200, R206) -/

/-- RSP.DEC that the block accepts (R200). -/
theorem exec_rspDecOf {s : State} (kind : Kind) (body : List Byte) (hb : s.opBusy = false) :
    exec (rspDecOf kind body) s = .next (s.deliver (decodeAnswer s.cfg kind body)) := by
  cases kind <;> exact exec_free rfl hb

/-- The three tiers with their shapes spelled out (R200). -/
theorem decodeAnswer_eq (cfg : Config) (kind : Kind) (body : List Byte) :
    decodeAnswer cfg kind body =
      if body.length = responseLength kind ∧ body.head? = some (cfg.responseType kind) then
        .ok (.response (decodeResponse cfg kind body))
      else if body.length = 2 ∧ body.head? = some cfg.typeError then .err (errorResponse (byteAt body 1))
      else .err (.responseMismatch kind body.length body.head?) := by
  simp only [decodeAnswer, matchesShape_iff]

/-- A body of neither length has neither shape. -/
theorem decodeAnswer_neitherLength (cfg : Config) {kind : Kind} {body : List Byte}
    (hkind : body.length ≠ responseLength kind) (hError : body.length ≠ 2) :
    decodeAnswer cfg kind body = .err (.responseMismatch kind body.length body.head?) := by
  rw [decodeAnswer_eq, if_neg fun h => hkind h.1, if_neg fun h => hError h.1]

/-- A body of the kind's length alone: its first byte decides between the first tier and the third. -/
theorem decodeAnswer_kindLength (cfg : Config) {kind : Kind} (t : Byte) {rest : List Byte}
    (hkind : (t :: rest).length = responseLength kind) (hError : (t :: rest).length ≠ 2) :
    decodeAnswer cfg kind (t :: rest) =
      if t = cfg.responseType kind then .ok (.response (decodeResponse cfg kind (t :: rest)))
      else .err (.responseMismatch kind (t :: rest).length (some t)) := by
  simp only [decodeAnswer_eq, hkind, hkind ▸ hError, true_and, false_and, if_false, List.head?_cons, Option.some.injEq]

/-- A body of the Error shape's length alone: its first byte decides between the second tier and the third. -/
theorem decodeAnswer_errorLength (cfg : Config) {kind : Kind} (t code : Byte) (hkind : responseLength kind ≠ 2) :
    decodeAnswer cfg kind [t, code] =
      if t = cfg.typeError then .err (errorResponse code) else .err (.responseMismatch kind 2 (some t)) := by
  simp [decodeAnswer_eq, hkind.symm, byteAt]

/-- A body of both lengths: its first byte decides between the three tiers. -/
theorem decodeAnswer_bothLengths (cfg : Config) {kind : Kind} (t code : Byte) (hkind : responseLength kind = 2) :
    decodeAnswer cfg kind [t, code] =
      if t = cfg.responseType kind then .ok (.response (decodeResponse cfg kind [t, code]))
      else if t = cfg.typeError then .err (errorResponse code)
      else .err (.responseMismatch kind 2 (some t)) := by
  simp [decodeAnswer_eq, hkind, byteAt]

/-- Settles O32: the body's length says which of the two shapes it can have. -/
theorem rspDecThreeTiers : Obligations.RspDecThreeTiers := by
  intro s kind body hb
  rw [exec_rspDecOf kind body hb]
  refine congrArg (fun c => Host.Outcome.next (s.deliver c)) ?_
  match kind, body with
  | .read, [t, _, _] | .write, [t] => exact decodeAnswer_kindLength s.cfg t rfl (by simp)
  | .read, [t, code] | .write, [t, code] => exact decodeAnswer_errorLength s.cfg t code (by decide)
  | .toggle, [t, code] | .i2cWrite, [t, code] => exact decodeAnswer_bothLengths s.cfg t code rfl
  | .read, [] | .read, [_] | .read, _ :: _ :: _ :: _ :: _ | .write, [] | .write, _ :: _ :: _ :: _
  | .toggle, [] | .toggle, [_] | .toggle, _ :: _ :: _ :: _
  | .i2cWrite, [] | .i2cWrite, [_] | .i2cWrite, _ :: _ :: _ :: _ =>
    exact decodeAnswer_neitherLength s.cfg (by simp [responseLength]) (by simp)

theorem errorResponse_ne_mismatch (code : Byte) (kind : Kind) (length : Nat) (first : Option Byte) :
    errorResponse code ≠ .responseMismatch kind length first := by
  unfold errorResponse
  split <;> simp

/-- The first two tiers never answer with a mismatch, so it tells that the third was reached (R207). -/
theorem decodeAnswer_eq_mismatch_iff (cfg : Config) (kind : Kind) (body : List Byte) :
    decodeAnswer cfg kind body = .err (.responseMismatch kind body.length body.head?) ↔
      ¬ (body.length = responseLength kind ∧ body.head? = some (cfg.responseType kind)) ∧
        ¬ (body.length = 2 ∧ body.head? = some cfg.typeError) := by
  rw [decodeAnswer_eq]
  split_ifs with hshape herror
  · simp [hshape]
  · simp [herror, errorResponse_ne_mismatch]
  · simp only [hshape, herror, not_false_eq_true, and_self]

/-- Settles O33: what RSP.DEC delivers is the tiers' answer. -/
theorem mismatchExactlyWhenNeitherShape : Obligations.MismatchExactlyWhenNeitherShape := by
  intro s t kind body hb hexec
  cases (exec_rspDecOf kind body hb).symm.trans hexec
  rw [State.deliver_completions, List.append_cancel_left_eq, List.singleton_inj]
  exact decodeAnswer_eq_mismatch_iff s.cfg kind body

/-! ### The shapes exclude each other (R208) -/

/-- Under R8 (2) no expected response TYPE is TYPE_ERROR. -/
theorem responseType_ne_typeError {cfg : Config} (h : cfg.responseTypesDistinct = true) (kind : Kind) :
    cfg.responseType kind ≠ cfg.typeError := by
  have hnodup : (cfg.requestTypes.map cfg.resp ++ [cfg.typeError]).Nodup := of_decide_eq_true h
  obtain ⟨-, -, hne⟩ := List.nodup_append.1 hnodup
  exact hne _ (List.mem_map_of_mem (cfg.requestType_mem kind)) _ List.mem_cons_self

/-- Settles O34: a body's first byte is not both TYPEs. -/
theorem atMostOneShapeMatches : Obligations.AtMostOneShapeMatches := by
  intro cfg kind body hdistinct hshape
  obtain ⟨-, hhead⟩ := matchesShape_iff.1 hshape
  refine Bool.eq_false_iff.2 fun herror => responseType_ne_typeError hdistinct kind ?_
  obtain ⟨-, hheadError⟩ := matchesShape_iff.1 herror
  exact Option.some.inj (hhead.symm.trans hheadError)

/-! ### The decoded responses (R201 to R206) -/

/-- RSP.DEC of a body of the expected shape (R201 to R204). -/
theorem exec_rspDecOf_of_shape {s : State} {kind : Kind} {body : List Byte} (hb : s.opBusy = false)
    (hl : body.length = responseLength kind) (ht : body.head? = some (s.cfg.responseType kind)) :
    exec (rspDecOf kind body) s = .next (s.complete (.response (decodeResponse s.cfg kind body))) := by
  rw [exec_rspDecOf kind body hb, decodeAnswer_of_shape hl ht, State.complete_eq]

/-- RSP.DEC of an Error body, of every kind (R206). -/
theorem exec_rspDecOf_errorBody {s : State} (kind : Kind) (code : Byte) (hb : s.opBusy = false)
    (hdistinct : s.cfg.responseTypesDistinct = true) :
    exec (rspDecOf kind [s.cfg.typeError, code]) s = .next (s.raise (errorResponse code)) := by
  have hanswer : decodeAnswer s.cfg kind [s.cfg.typeError, code] = .err (errorResponse code) := by
    rw [decodeAnswer_eq, if_neg, if_pos ⟨rfl, rfl⟩]
    · rfl
    · rintro ⟨-, hhead⟩
      exact responseType_ne_typeError hdistinct kind (Option.some.inj hhead).symm
  rw [exec_rspDecOf _ _ hb, hanswer, State.raise_eq]

/-- Settles O30: each body has its kind's length and TYPE. -/
theorem rspDecDecodesItsShapes : Obligations.RspDecDecodesItsShapes :=
  ⟨fun _ _ _ hb => exec_rspDecOf_of_shape (kind := .read) hb rfl rfl,
    fun _ hb => exec_rspDecOf_of_shape (kind := .write) hb rfl rfl,
    fun _ _ hb => exec_rspDecOf_of_shape (kind := .toggle) hb rfl rfl,
    fun _ _ hb => exec_rspDecOf_of_shape (kind := .i2cWrite) hb rfl rfl,
    fun _ kind code hb hdistinct => exec_rspDecOf_errorBody kind code hb hdistinct⟩

/-! ### The I2C result codes (R205) -/

/-- A code of no row of the table (R205). -/
theorem i2cResult_unlisted {cfg : Config} {code : Byte} (h : code ∉
      [cfg.i2cSuccess, cfg.i2cDataTooLong, nackOnAddressCode, cfg.i2cNackOnData, cfg.i2cOther, cfg.i2cTimeout]) :
    i2cResult cfg code = .unknown code := by
  simp only [List.mem_cons, List.not_mem_nil, or_false, not_or] at h
  obtain ⟨hsuccess, hdata, haddress, hnack, hother, htimeout⟩ := h
  rw [i2cResult, if_neg hsuccess, if_neg hdata, if_neg haddress, if_neg hnack, if_neg hother, if_neg htimeout]

/-- Settles O31: the six listed codes by evaluation; a code from 0x06 is in no row. -/
theorem i2cResultCodes : Obligations.I2cResultCodes := by
  have hlow : ∀ code ∈ [0x00#8, 0x01#8, 0x02#8, 0x03#8, 0x04#8, 0x05#8], code.toNat < 0x06 := by decide
  exact ⟨rfl, rfl, rfl, rfl, rfl, rfl, fun code hcode => i2cResult_unlisted fun hlisted =>
    Nat.not_lt.2 hcode (hlow code hlisted)⟩

end Sys2Proof.Machine
end

section
/-! The statements about completions and errors (60_exceptions.md): how often an operation is answered, what an error
leaves alone, the reserved codes, and HOST's retries and attempts. -/

namespace Sys2Proof.Machine

/-! ### What a move delivers (R230, R234) -/

/-- A move from `s` to `t` delivers nothing and does not free a busy block, or it delivers one completion, no
CLIENT_ERROR, and leaves the block free. -/
def DeliversAtMostOne (s t : State) : Prop :=
  (t.completions = s.completions ∧ (s.opBusy = true → t.opBusy = true)) ∨
    ∃ c, t.completions = s.completions ++ [c] ∧ t.opBusy = false ∧ ∀ code, c ≠ .err (.clientError code)

/-- An accepted operation other than FRAME.DEC delivers one completion and touches neither OP_BUSY nor RX_STATE. -/
theorem Effect.answers {i : Instr} {s t : State} (h : Effect i s t) (hi : ∀ own, i ≠ .frameDec own) :
    ∃ c, t.completions = s.completions ++ [c] ∧ t.opBusy = s.opBusy ∧ t.rxState = s.rxState ∧
      ∀ code, c ≠ .err (.clientError code) := by
  cases h with
  | crc w p _ _ => exact ⟨_, rfl, rfl, rfl, nofun⟩
  | answer c hc _ => exact ⟨c, rfl, rfl, rfl, fun code heq => hc _ heq code rfl⟩
  | emitted bytes _ => exact ⟨_, rfl, rfl, rfl, nofun⟩
  | decode own heq => exact absurd heq (hi own)

theorem exec_deliversAtMostOne {i : Instr} {s t : State} (h : exec i s = .next t) : DeliversAtMostOne s t := by
  rcases exec_cases h with ⟨-, -, rfl⟩ | ⟨hi, hb, heff⟩ | ⟨-, bytes, rfl⟩
  · exact .inl ⟨rfl, id⟩
  · by_cases hdec : ∃ own, i = .frameDec own
    · obtain ⟨own, rfl⟩ := hdec
      cases (exec_free hi hb).symm.trans h
      exact .inl ⟨rfl, fun _ => rfl⟩
    · obtain ⟨c, hc, hbusy, -, hclient⟩ := heff.answers (not_exists.1 hdec)
      exact .inr ⟨c, hc, hbusy.trans hb, hclient⟩
  · exact .inl ⟨rfl, id⟩

theorem frameVerdict_ne_clientError (cfg : Config) (own sender receiver : Byte) (body : List Byte) (checksum : Word)
    (endByte code : Byte) :
    frameVerdict cfg own sender receiver body checksum endByte ≠ .err (.clientError code) := by
  unfold frameVerdict
  split_ifs <;> simp

/-- A byte that does not end the decode leaves OP_BUSY alone. -/
theorem ByteEffect.deliversAtMostOne {b : Byte} {s t : State} (h : ByteEffect b s t) : DeliversAtMostOne s t := by
  cases h with
  | awaitStart _ => rw [rxAwaitStart_eq]; exact .inl ⟨rfl, id⟩
  | malformed _ _ => exact .inr ⟨_, rfl, rfl, nofun⟩
  | ended _ _ _ _ => exact .inr ⟨_, rfl, rfl, frameVerdict_ne_clientError _ _ _ _ _ _ _⟩
  | senderId _ | receiverId _ | lenHi _ | lenLo _ | body _ _ | checksumHi _ | checksumLo _ => exact .inl ⟨rfl, id⟩

/-- A reset frees the block and delivers nothing (70_reset_and_hazards.md R272); no other move frees it without a
completion. -/
theorem runTurn_deliversAtMostOne {turn : Turn} {s t : State} (h : runTurn turn s = .next t) :
    (turn = .reset ∧ t.completions = s.completions) ∨ DeliversAtMostOne s t := by
  rcases runTurn_cases h with rfl | ⟨_, _, _, -, -, -, -, he⟩ | ⟨_, _, -, -, -, he⟩ | ⟨-, -, rfl⟩ | ⟨_, -, rfl⟩ |
    ⟨_, -, rfl⟩ | ⟨hturn, rfl⟩
  · exact .inr (.inl ⟨rfl, id⟩)
  · have hissued := exec_deliversAtMostOne he
    exact .inr hissued
  · exact .inr he.deliversAtMostOne
  · exact .inr (.inr ⟨_, rfl, rfl, nofun⟩)
  · exact .inr (.inl ⟨rfl, id⟩)
  · exact .inr (.inl ⟨rfl, id⟩)
  · exact .inl ⟨hturn, rfl⟩

theorem step_deliversAtMostOne {s t : State} (h : step s = .next t) :
    (s.agenda.head? = some .reset ∧ t.completions = s.completions) ∨ DeliversAtMostOne s t := by
  obtain ⟨turn, later, hturn, heq⟩ := step_eq_runTurn (step_cases h).1
  rcases runTurn_deliversAtMostOne (heq.symm.trans h) with ⟨rfl, hsame⟩ | hdelivers
  · exact .inl ⟨head?_of_turn hturn nofun nofun, hsame⟩
  · exact .inr hdelivers

/-- Settles O44: one completion an operation, by what its effect delivers; a decode's comes with the move that frees the
block. -/
theorem completionsAreDeliveredOnce : Obligations.CompletionsAreDeliveredOnce := by
  refine ⟨fun s t hstep => ?atMostOne, fun s i hi hdec hb => ?issued, fun s own hb => ⟨_, exec_free rfl hb, rfl, rfl⟩,
    fun s t _ hb hstep hreset => ?ended⟩
  case atMostOne =>
    rcases step_deliversAtMostOne hstep with ⟨-, hsame⟩ | ⟨hsame, -⟩ | ⟨c, hc, -⟩
    · exact .inl hsame
    · exact .inl hsame
    · exact .inr ⟨c, hc⟩
  case issued =>
    obtain ⟨c, hc, hbusy, hstate, -⟩ := (hostEffect_effect s hi).answers hdec
    exact ⟨_, c, exec_free hi hb, hc, hbusy.trans hb, hstate⟩
  case ended =>
    rcases step_deliversAtMostOne hstep with ⟨hhead, -⟩ | ⟨hsame, hbusy⟩ | ⟨c, hc, hfree, -⟩
    · exact absurd hhead hreset
    · simp [hsame, hbusy hb]
    · exact ⟨fun _ => ⟨c, hc⟩, fun _ => hfree⟩

/-- Settles O46: no move delivers one, and a reset delivers nothing. -/
theorem blockNeverRaisesClientError : Obligations.BlockNeverRaisesClientError := by
  intro s t code hstep hdelivered
  rcases step_deliversAtMostOne hstep with ⟨-, hsame⟩ | ⟨hsame, -⟩ | ⟨c, hc, -, hclient⟩
  · simp [hsame] at hdelivered
  · simp [hsame] at hdelivered
  · obtain rfl : c = .err (.clientError code) := by simpa using hc.symm.trans hdelivered
    exact hclient code rfl

/-! ### Errors of an issue step (R233, R236) -/

/-- Settles O45: only the answers among the effects can be errors, and an answer is delivered and nothing else. -/
theorem errorsArePrecise : Obligations.ErrorsArePrecise := by
  intro s t i e hexec herr
  rcases exec_cases hexec with ⟨-, -, rfl⟩ | ⟨-, -, heff⟩ | ⟨-, bytes, rfl⟩
  · simp at herr
  · cases heff with
    | crc w p _ _ => simp at herr
    | answer c _ _ =>
      obtain rfl : c = .err e := by simpa using herr
      rfl
    | emitted bytes _ => simp at herr
    | decode own _ => simp at herr
  · simp at herr

/-- The OPC that a reserved row's low bits stand for. -/
theorem reservedOpc_eq_ofNat (low : BitVec 3) : 1#1 ++ low = BitVec.ofNat 4 (8 + low.toNat) := by
  revert low
  decide

/-- Settles O36. -/
theorem reservedOpcCompletesIllegalOp : Obligations.ReservedOpcCompletesIllegalOp := by
  refine ⟨fun s hb => exec_free rfl hb, fun s low hb => ?_⟩
  rw [exec_free rfl hb, hostEffect, reservedOpc_eq_ofNat]
  rfl

/-! ### HOST's retries (R244, R245) -/

theorem Failure.terminal_iff {f : Failure} : f.terminal = true ↔ f = .status .invalidPin := by
  unfold Failure.terminal
  split <;> simp_all

/-- The loop from attempt `k` on ends with attempt `k + n`: each one before failed and was retried, and if it is not the
last allowed it succeeded or was INVALID_PIN. -/
theorem sendLoop_stops (attempt : Nat → AttemptOutcome) (retries k : Nat) :
    ∃ n, n ≤ retries ∧ sendLoop attempt retries k = ⟨attempt (k + n), n + 1, n⟩ ∧
      (∀ j, j < n → ∃ f, attempt (k + j) = .failed f ∧ f ≠ .status .invalidPin) ∧
      (n < retries → (∃ r, attempt (k + n) = .response r) ∨ attempt (k + n) = .failed (.status .invalidPin)) := by
  induction retries generalizing k with
  | zero => exact ⟨0, Nat.le_refl 0, rfl, nofun, nofun⟩
  | succ retries ih =>
    cases hk : attempt k with
    | response r => exact ⟨0, Nat.zero_le _, by simp [sendLoop, hk], nofun, fun _ => .inl ⟨r, hk⟩⟩
    | failed f =>
      by_cases hpin : f = .status .invalidPin
      · subst hpin
        exact ⟨0, Nat.zero_le _, by simp [sendLoop, hk, Failure.terminal], nofun, fun _ => .inr hk⟩
      · have hretried : f.terminal = false := Bool.eq_false_iff.2 (mt Failure.terminal_iff.1 hpin)
        obtain ⟨n, hn, hloop, hearlier, hlast⟩ := ih (k + 1)
        rw [Nat.add_right_comm] at hloop hlast
        refine ⟨n + 1, Nat.succ_le_succ hn, by simp [sendLoop, hk, hretried, hloop, Nat.add_assoc],
          fun j hj => ?_, fun h => hlast (Nat.lt_of_succ_lt_succ h)⟩
        cases j with
        | zero => exact ⟨f, hk, hpin⟩
        | succ j =>
          rw [← Nat.add_assoc, Nat.add_right_comm]
          exact hearlier j (Nat.lt_of_succ_lt_succ hj)

/-- Settles O59: the loop from attempt 0 on. -/
theorem sendStopsAtFirstSuccessOrInvalidPin : Obligations.SendStopsAtFirstSuccessOrInvalidPin := by
  intro dc attempt
  obtain ⟨n, hn, hsend, hearlier, hlast⟩ := sendLoop_stops attempt dc.maxRetries 0
  simp only [Nat.zero_add] at hsend hearlier hlast
  exact ⟨n, hn, hsend, hearlier, hlast, fun _ => rfl⟩

/-- Settles O58: where `send` stops leaves the last attempt allowed, or the first. -/
theorem retryCounts : Obligations.RetryCounts := by
  refine ⟨fun dc attempt error hfails => ?everyFails, fun dc attempt hpin => ?firstPin, fun _ => rfl⟩
  case everyFails =>
    obtain ⟨n, hn, hsend, -, hlast, -⟩ := sendStopsAtFirstSuccessOrInvalidPin dc attempt
    obtain ⟨hfailed, reason, hreason⟩ := hfails n
    have hmax : n = dc.maxRetries := by
      refine Nat.le_antisymm hn (Nat.not_lt.1 fun hlt => ?_)
      rcases hlast hlt with ⟨r, hr⟩ | hpin
      · cases hfailed.symm.trans hr
      · obtain hinvalid : error n = .invalidPin := by simpa using hfailed.symm.trans hpin
        simp [hinvalid, Failure.errorKind] at hreason
    rw [hsend, hfailed, hmax]
  case firstPin =>
    obtain ⟨n, -, hsend, hearlier, -⟩ := sendStopsAtFirstSuccessOrInvalidPin dc attempt
    obtain rfl : n = 0 := by
      refine Nat.eq_zero_of_not_pos fun hpos => ?_
      obtain ⟨f, hf, hne⟩ := hearlier 0 hpos
      cases hpin.symm.trans hf
      exact hne rfl
    rw [hsend, hpin]

end Sys2Proof.Machine
end

section
/-! HOST's attempt over the block's operations (60_exceptions.md R243): CMD.ENC, FRAME.ENC, FRAME.DEC and RSP.DEC one
after another, with the reply of a remote addressed to HOST. -/

namespace Sys2Proof.Machine

/-! ### The operations of a command -/

/-- The kind that a command's CMD.ENC and RSP.DEC carry (43_command_encoder.md R180). -/
def Command.kind : Command → Kind
  | .read _ _ _ _ _ _ => .read
  | .write _ _ _ _ => .write
  | .toggle _ => .toggle
  | .i2cWrite _ _ _ => .i2cWrite

theorem Command.decodeOp_eq (cmd : Command) (body : List Byte) : cmd.decodeOp body = rspDecOf cmd.kind body := by
  cases cmd <;> rfl

/-- RSP.DEC that the block accepts, of the kind that the command expects. -/
theorem Command.exec_decodeOp (cmd : Command) (body : List Byte) {s : State} (hb : s.opBusy = false) :
    exec (cmd.decodeOp body) s = .next (s.deliver (decodeAnswer s.cfg cmd.kind body)) := by
  rw [cmd.decodeOp_eq, exec_rspDecOf cmd.kind body hb]

theorem i2cBody_length (cfg : Config) (address : Byte) (data : List Byte) (stop : Bool) :
    (i2cBody cfg address data stop).length = data.length + 3 := by
  simp [i2cBody]

/-- CMD.ENC that the block accepts delivers its answer and does nothing else; a body it answers with fits into a frame
(30_encoding.md R82). -/
theorem Command.exec_encodeOp (cmd : Command) {s : State} (hb : s.opBusy = false) :
    ∃ c, exec cmd.encodeOp s = .next (s.deliver c) ∧ ∀ body, c = .ok (.body body) → body.length ≤ maxBody := by
  cases cmd with
  | read pin pullup pulldown analog invert direct =>
    exact ⟨_, exec_free rfl hb, fun _ h => by cases h; simp [readBody, maxBody]⟩
  | write pin value analog invert => exact ⟨_, exec_free rfl hb, fun _ h => by cases h; simp [writeBody, maxBody]⟩
  | toggle pin => exact ⟨_, exec_free rfl hb, fun _ h => by cases h; simp [toggleBody, maxBody]⟩
  | i2cWrite address data stop =>
    rcases Nat.lt_or_ge maxI2cData data.length with hlong | hfits
    · exact ⟨_, exec_cmdEncI2cWrite_tooLong address stop hb hlong, nofun⟩
    · refine ⟨_, exec_cmdEncI2cWrite address stop hb hfits, fun _ h => ?_⟩
      cases h
      rw [i2cBody_length]
      simp only [maxI2cData, maxBody] at hfits ⊢
      omega

/-- CMD.ENC that answers with a body. -/
theorem Command.exec_encodeOp_body {cmd : Command} {s u : State} {body : List Byte} (hb : s.opBusy = false)
    (hexec : exec cmd.encodeOp s = .next u) (hbody : u.completions = s.completions ++ [.ok (.body body)]) :
    u = s.deliver (.ok (.body body)) ∧ body.length ≤ maxBody := by
  obtain ⟨c, hc, hfits⟩ := cmd.exec_encodeOp hb
  cases hc.symm.trans hexec
  obtain rfl : c = .ok (.body body) := by simpa using hbody
  exact ⟨rfl, hfits body rfl⟩

/-- An operation that delivers one completion in its issue step. -/
theorem runOperation_of_exec {i : Instr} {s t : State} {c : Completion} (h : exec i s = .next t)
    (hc : t.completions = s.completions ++ [c]) : runOperation i s = some (c, t) := by
  simp [runOperation, h, hc]

/-- RSP.DEC's answer is always an outcome. -/
theorem responseOutcome_decodeAnswer (cfg : Config) (kind : Kind) (body : List Byte) :
    ∃ outcome, responseOutcome (decodeAnswer cfg kind body) = some outcome := by
  rw [decodeAnswer_eq]
  split_ifs <;> exact ⟨_, rfl⟩

/-! ### The deframer with no agenda

`runDeframer` takes deframer steps with no turn for them in the agenda. The deframer reads no turn, so a run of the
machine with one deframer turn for each step gives the same. -/

/-- The state with another agenda. -/
def State.withAgenda (s : State) (agenda : List Turn) : State := { s with agenda := agenda }

theorem rxAwaitStart_withAgenda (b : Byte) (s : State) (agenda : List Turn) :
    rxAwaitStart b (s.withAgenda agenda) = (rxAwaitStart b s).withAgenda agenda := by
  rw [rxAwaitStart_eq, rxAwaitStart_eq]
  rfl

theorem rxBodyByte_withAgenda {b : Byte} {s t : State} (agenda : List Turn) (h : rxBodyByte b s = .next t) :
    rxBodyByte b (s.withAgenda agenda) = .next (t.withAgenda agenda) := by
  unfold rxBodyByte at h
  split at h
  · cases h; exact if_pos ‹_›
  · cases h

theorem rxAwaitEnd_withAgenda {b : Byte} {s t : State} (agenda : List Turn) (h : rxAwaitEnd b s = .next t) :
    rxAwaitEnd b (s.withAgenda agenda) = .next (t.withAgenda agenda) := by
  unfold rxAwaitEnd at h
  split at h
  · cases h; exact if_pos ‹_›
  · split at h
    · cases h
    · rename_i hread
      cases h
      exact rxAwaitEnd_verdict (s := s.withAgenda agenda) hread b

/-- No rule of the deframer reads or writes the agenda. -/
theorem deframeByte_withAgenda {b : Byte} {s t : State} (agenda : List Turn) (h : deframeByte b s = .next t) :
    deframeByte b (s.withAgenda agenda) = .next (t.withAgenda agenda) := by
  have hrule : (s.withAgenda agenda).rxState = s.rxState := rfl
  unfold deframeByte at h ⊢
  rw [hrule]
  cases hs : s.rxState <;> rw [hs] at h
  case awaitStart => cases h; exact congrArg Host.Outcome.next (rxAwaitStart_withAgenda b s agenda)
  case body => exact rxBodyByte_withAgenda agenda h
  case awaitEnd => exact rxAwaitEnd_withAgenda agenda h
  all_goals cases h; rfl

theorem deframeStep_withAgenda {s t : State} (agenda : List Turn) (h : deframeStep s = .next t) :
    deframeStep (s.withAgenda agenda) = .next (t.withAgenda agenda) := by
  by_cases hs : s.rxState = .idle
  · cases (deframeStep_idle hs).symm.trans h
    exact deframeStep_idle hs
  · cases hin : s.rxIn with
    | nil =>
      cases (deframeStep_empty hin).symm.trans h
      exact deframeStep_empty hin
    | cons b rest =>
      rw [deframeStep_byte hs hin] at h
      exact (deframeStep_byte (s := s.withAgenda agenda) hs hin).trans (deframeByte_withAgenda agenda h)

theorem deframeStep_frame {s t : State} (h : deframeStep s = .next t) : t.cfg = s.cfg ∧ t.agenda = s.agenda := by
  rcases deframeStep_cases h with ⟨-, rfl⟩ | ⟨_, _, -, -, he⟩
  · exact ⟨rfl, rfl⟩
  · obtain ⟨hcfg, -, -, -, -, hagenda⟩ := he.frame
    exact ⟨hcfg, hagenda⟩

theorem runDeframer_idle {s : State} (h : s.rxState = .idle) (fuel : Nat) : runDeframer fuel s = some s := by
  cases fuel <;> simp [runDeframer, h]

theorem runDeframer_succ {s t : State} (h : deframeStep s = .next t) (fuel : Nat) :
    runDeframer (fuel + 1) s = runDeframer fuel t := by
  by_cases hs : s.rxState = .idle
  · cases (deframeStep_idle hs).symm.trans h
    rw [runDeframer_idle hs, runDeframer_idle hs]
  · simp [runDeframer, hs, h]

/-- Deframer steps are what the machine does in a run with a deframer turn for each of them. -/
theorem runDeframer_of_run {n : Nat} {s t : State} (hw : s.cfg.wf = true)
    (h : run n (s.withAgenda (List.replicate n .deframer)) = .next t) :
    runDeframer n s = some (t.withAgenda s.agenda) := by
  induction n generalizing s with
  | zero => cases h; rfl
  | succ n ih =>
    have hstep : step (s.withAgenda (List.replicate (n + 1) .deframer)) =
        deframeStep (s.withAgenda (List.replicate n .deframer)) := step_deframer hw rfl
    cases hu : deframeStep (s.withAgenda (List.replicate n .deframer)) with
    | fault f => simp [run, hstep, hu] at h
    | refused r => simp [run, hstep, hu] at h
    | next u =>
      obtain ⟨hcfg, hagenda⟩ := deframeStep_frame hu
      have hrest : u = (u.withAgenda s.agenda).withAgenda (List.replicate n .deframer) :=
        congrArg u.withAgenda hagenda
      rw [run_succ_next (hstep.trans hu), hrest] at h
      calc runDeframer (n + 1) s
          = runDeframer n (u.withAgenda s.agenda) := runDeframer_succ (deframeStep_withAgenda s.agenda hu) n
        _ = some (t.withAgenda s.agenda) := ih (hcfg ▸ hw) h

/-! ### FRAME.DEC of the reply (R240) -/

/-- The deframer takes the whole of a reply addressed to HOST and answers with its Packet. -/
theorem runDeframer_reply {s : State} (own sender : Byte) {body : List Byte} (hw : s.cfg.wf = true)
    (hin : s.rxIn = []) (hbody : body.length ≤ maxBody) :
    runDeframer (8 + body.length) ((s.beginDecode own).receive (encodedFrame s.cfg sender own body)) =
      some ((s.beginDecode own).endDecode.deliver
        (.ok (.packet ⟨sender, own, body, frameCrc s.cfg sender own body⟩))) := by
  let listening : State := (s.beginDecode own).receive (encodedFrame s.cfg sender own body)
  have hreply : listening.rxIn = encodedFrame s.cfg sender own body ++ s.rxIn := by simp [listening, hin]
  have hrun := run_frameLayout (s := listening.withAgenda (List.replicate (8 + body.length) .deframer)) hw rfl hbody
    hreply (List.append_nil _).symm
  rw [← frameVerdict_accepted s.cfg sender body (.inl rfl)]
  exact runDeframer_of_run (s := listening) hw hrun

/-- FRAME.DEC of an attempt whose decode the deframer has completed: TIMEOUT has no effect any more. -/
theorem runDecode_of_runDeframer {own : Byte} {reply : List Byte} {before : List Completion} {c : Completion}
    {s t : State} (hb : s.opBusy = false)
    (hrun : runDeframer (s.rxIn ++ reply).length ((s.beginDecode own).receive reply) = some t)
    (hidle : t.rxState = .idle) (hc : t.completions = before ++ [c]) : runDecode own reply s = some (c, t) := by
  have hissued : exec (.frameDec own) s = .next (s.beginDecode own) := exec_free rfl hb
  simp only [runDecode, hissued, State.beginDecode_rxIn, hrun, timeoutEvent_idle hidle, hc, List.getLast?_concat,
    Option.map_some]

/-- FRAME.DEC of an attempt, with a reply addressed to HOST. -/
theorem runDecode_reply {s : State} (own sender : Byte) {body : List Byte} (hw : s.cfg.wf = true)
    (hb : s.opBusy = false) (hin : s.rxIn = []) (hbody : body.length ≤ maxBody) :
    runDecode own (encodedFrame s.cfg sender own body) s =
      some (.ok (.packet ⟨sender, own, body, frameCrc s.cfg sender own body⟩),
        (s.beginDecode own).endDecode.deliver (.ok (.packet ⟨sender, own, body, frameCrc s.cfg sender own body⟩))) := by
  have hfuel : (s.rxIn ++ encodedFrame s.cfg sender own body).length = 8 + body.length := by
    rw [hin]
    exact frameLayout_length ..
  refine runDecode_of_runDeframer hb ?_ rfl rfl
  rw [hfuel]
  exact runDeframer_reply own sender hw hin hbody

/-! ### The attempt (R243) -/

/-- An attempt none of whose operations answers with an error. -/
theorem attempt_of_operations {own recipient : Byte} {cmd : Command} {reply body : List Byte} {payload : Payload}
    {packet : Packet} {c : Completion} {outcome : AttemptOutcome} {s encoded framed replied answered : State}
    (hencoded : runOperation cmd.encodeOp s = some (.ok (.body body), encoded))
    (hframed : runOperation (.frameEnc own recipient body) encoded = some (.ok payload, framed))
    (hreplied : runDecode own reply framed = some (.ok (.packet packet), replied))
    (hanswered : runOperation (cmd.decodeOp packet.body) replied = some (c, answered))
    (houtcome : responseOutcome c = some outcome) :
    attempt own recipient cmd reply s = some (outcome, answered) := by
  simp only [attempt, hencoded, hframed, hreplied, hanswered, houtcome, Option.map_some]

/-- Settles O60: each operation of the attempt succeeds, and the last is RSP.DEC of the reply's body. -/
theorem attemptAnswersReplyBody : Obligations.AttemptAnswersReplyBody := by
  rintro s own recipient sender cmd replyBody body hw hb - hin hreply ⟨_, hexec, hbody⟩
  obtain ⟨rfl, hfits⟩ := Command.exec_encodeOp_body hb hexec hbody
  obtain ⟨outcome, houtcome⟩ := responseOutcome_decodeAnswer s.cfg cmd.kind replyBody
  let request : List Byte := encodedFrame s.cfg own recipient body
  let encoded : State := s.deliver (.ok (.body body))
  let framed : State := (encoded.emit request).complete (.frame request)
  let packet : Packet := ⟨sender, own, replyBody, frameCrc s.cfg sender own replyBody⟩
  let replied : State := (framed.beginDecode own).endDecode.deliver (.ok (.packet packet))
  have hencoded := runOperation_of_exec hexec hbody
  have hframed : runOperation (.frameEnc own recipient body) encoded = some (.ok (.frame request), framed) :=
    runOperation_of_exec (exec_frameEnc own recipient hb hfits) rfl
  have hreplied : runDecode own (encodedFrame s.cfg sender own replyBody) framed =
      some (.ok (.packet packet), replied) :=
    runDecode_reply (s := framed) own sender hw hb hin hreply
  have hcfg : replied.cfg = s.cfg := by simp [replied, framed, encoded]
  have hanswered := runOperation_of_exec (cmd.exec_decodeOp replyBody (s := replied) rfl) (State.deliver_completions ..)
  rw [hcfg] at hanswered
  refine ⟨outcome, _, _, attempt_of_operations hencoded hframed hreplied hanswered houtcome, ?_, ?_, ?_,
    cmd.exec_decodeOp replyBody hb, decodeAnswer s.cfg cmd.kind replyBody, State.deliver_completions .., houtcome⟩
  · simp [replied]
  · simp [replied, framed, encoded, hin]
  · simp [replied, framed, encoded, request]

end Sys2Proof.Machine
end

section
/-! Reset (70_reset_and_hazards.md): the state after reset is ready and meets the invariant, and a reset during a run
abandons a decode. -/

namespace Sys2Proof.Machine

/-- A free block accepts any operation of HOST: it answers it, or the operation is FRAME.DEC and begins. -/
theorem exec_answered_or_begun {i : Instr} {s : State} (hi : fromHost i = true) (hb : s.opBusy = false) :
    ∃ t, exec i s = .next t ∧ ((∃ c, t.completions = s.completions ++ [c]) ∨
      (t.completions = s.completions ∧ t.opBusy = true ∧ ∃ own, i = .frameDec own)) := by
  refine ⟨_, exec_free hi hb, ?_⟩
  by_cases hdec : ∃ own, i = .frameDec own
  · obtain ⟨own, rfl⟩ := hdec
    exact .inr ⟨rfl, rfl, own, rfl⟩
  · obtain ⟨c, hc, -⟩ := (hostEffect_effect s hi).answers (not_exists.1 hdec)
    exact .inl ⟨c, hc⟩

/-- Settles O47: the state after reset is free and has delivered nothing. -/
theorem resetLeavesBlockReady : Obligations.ResetLeavesBlockReady :=
  ⟨fun _ => ⟨rfl, rfl, rfl, rfl⟩, fun c _ hi => exec_answered_or_begun (s := State.resetWith c) hi rfl, rfl⟩

/-- A reset turn at the head of the agenda resets the block. -/
theorem step_reset {s : State} {later : List Turn} (hw : s.cfg.wf = true) (h : s.agenda = .reset :: later) :
    step s = .next { s with agenda := later }.resetBlock :=
  step_agenda hw h

/-- Settles O48: the step is `State.resetBlock`, whose channels depend on TRANSPORT_FLUSH_ON_RESET. -/
theorem resetAbandonsDecode : Obligations.ResetAbandonsDecode := by
  intro s later hw ha
  refine ⟨_, step_reset hw ha, rfl, rfl, rfl, rfl, rfl, rfl, rfl, fun hkept => ?kept, fun hflushed => ?flushed⟩
  case kept => simp [hkept]
  case flushed => simp [hflushed]

/-- Settles O50: after reset the deframer is before LEN and RX_BODY is empty. -/
theorem resetMeetsInvariant : Obligations.ResetMeetsInvariant := fun _ hw => .of_beforeLen hw rfl rfl rfl

end Sys2Proof.Machine
end

section
/-! The encoding's round trip (30_encoding.md): what `encode` writes for an instruction, the decoder of its format reads
back. -/

namespace Sys2Proof.Machine

/-! ### Operations (R86 to R88; notes/assumptions/4.md)

A row with neither Boolean nor `u16` operands is read back by evaluation. -/

theorem decodeCmdEncRead_operands (pin : Byte) (pullup pulldown analog invert direct : Bool) :
    decodeCmdEncRead [pin, boolByte pullup, boolByte pulldown, boolByte analog, boolByte invert, boolByte direct] =
      .ok (.cmdEncRead pin pullup pulldown analog invert direct) := by
  simp only [decodeCmdEncRead, readBool_boolByte]
  rfl

theorem decodeCmdEncWrite_operands (pin : Byte) (value : Word) (analog invert : Bool) :
    decodeCmdEncWrite [pin, hiByte value, loByte value, boolByte analog, boolByte invert] =
      .ok (.cmdEncWrite pin value analog invert) := by
  simp only [decodeCmdEncWrite, readBool_boolByte, joinBytes_hiByte_loByte]
  rfl

theorem decodeCmdEncI2cWrite_operands (address : Byte) (data : List Byte) (stop : Bool) :
    decodeCmdEncI2cWrite (address :: boolByte stop :: data) = .ok (.cmdEncI2cWrite address data stop) := by
  simp only [decodeCmdEncI2cWrite, readBool_boolByte]
  rfl

/-- The eight operation codes of the last row stand for the eight values of its low bits (60_exceptions.md R233). -/
theorem decodeOp_reservedOpcHigh (low : BitVec 3) :
    decodeOp [opByte (8 + low.toNat) 0] = .ok (.reservedOpcHigh low) := by
  revert low; decide

/-! ### A body's decoder is selected by its TYPE byte (R74, R77, R78) -/

/-- The decoder of a request body of each kind, after its TYPE byte. -/
def decodeReqFields (c : Config) : Kind → List Byte → Except DecodeError Instr
  | .read => decodeReqRead c
  | .write => decodeReqWrite c
  | .toggle => decodeReqToggle
  | .i2cWrite => decodeReqI2cWrite c

/-- The decoder of a response body of each kind, after its TYPE byte. -/
def decodeRspFields : Kind → List Byte → Except DecodeError Instr
  | .read => decodeRspRead
  | .write => decodeRspWrite
  | .toggle => decodeRspToggle
  | .i2cWrite => decodeRspI2cWrite

section
variable {c : Config}

/-- Where the four kinds have distinct TYPEs, a TYPE names its kind. -/
theorem kind_inj_of_nodup {typeOf : Kind → Byte}
    (hnodup : ([Kind.read, .write, .toggle, .i2cWrite].map typeOf).Nodup) {k k' : Kind} :
    typeOf k = typeOf k' ↔ k = k' := by
  have hmem (k : Kind) : k ∈ [Kind.read, .write, .toggle, .i2cWrite] := by cases k <;> simp
  exact ⟨List.inj_on_of_nodup_map hnodup (hmem k) (hmem k'), congrArg typeOf⟩

theorem requestType_inj (hc : c.wf = true) {k k' : Kind} : c.requestType k = c.requestType k' ↔ k = k' :=
  kind_inj_of_nodup (typeOf := c.requestType) (Config.wf_requestTypes hc)

theorem responseType_inj (hc : c.wf = true) {k k' : Kind} : c.responseType k = c.responseType k' ↔ k = k' :=
  kind_inj_of_nodup (typeOf := c.responseType) <|
    (Config.wf_responseTypes hc).sublist (List.sublist_append_left (c.requestTypes.map c.resp) [c.typeError])

theorem decodeReqBody_requestType (hc : c.wf = true) (k : Kind) (rest : List Byte) :
    decodeReqBody c (c.requestType k :: rest) = decodeReqFields c k rest := by
  have hselect : decodeReqBody c (c.requestType k :: rest) =
      if c.requestType k = c.requestType .read then decodeReqFields c .read rest
      else if c.requestType k = c.requestType .write then decodeReqFields c .write rest
      else if c.requestType k = c.requestType .toggle then decodeReqFields c .toggle rest
      else if c.requestType k = c.requestType .i2cWrite then decodeReqFields c .i2cWrite rest
      else .error (.unassignedType (c.requestType k)) := rfl
  cases k <;> simp [hselect, requestType_inj hc]

theorem decodeRspBody_responseType (hc : c.wf = true) (k : Kind) (rest : List Byte) :
    decodeRspBody c (c.responseType k :: rest) = decodeRspFields k rest := by
  cases k <;> simp [decodeRspBody, decodeRspFields, responseType_inj hc]

theorem decodeRspBody_typeError (hc : c.wf = true) (rest : List Byte) :
    decodeRspBody c (c.typeError :: rest) = decodeRspError rest := by
  obtain ⟨-, hdistinct, -⟩ := Config.wf_parts hc
  simp [decodeRspBody, (responseType_ne_typeError hdistinct _).symm]

/-! ### Request bodies (R75, R80 to R82) -/

theorem decodeReqRead_fields (hc : c.wf = true) (pin : Byte) (pullup pulldown analog invert direct : Bool) :
    decodeReqRead c [pin, readFlags c pullup pulldown analog invert direct] =
      .ok (.reqRead pin pullup pulldown analog invert direct) := by
  obtain ⟨hread, -⟩ := flagsBytesCarryTheirFields
  obtain ⟨hpullup, hpulldown, hanalog, hinvert, hdirect, -⟩ := hread c pullup pulldown analog invert direct hc
  simp only [decodeReqRead, flagField, hpullup, hpulldown, hanalog, hinvert, hdirect]

theorem decodeReqWrite_fields (hc : c.wf = true) (pin : Byte) (value : Word) (analog invert : Bool) :
    decodeReqWrite c [pin, hiByte value, loByte value, writeFlags c analog invert] =
      .ok (.reqWrite pin value analog invert) := by
  obtain ⟨-, hwrite, -⟩ := flagsBytesCarryTheirFields
  obtain ⟨hanalog, hinvert, -⟩ := hwrite c analog invert hc
  simp only [decodeReqWrite, flagField, hanalog, hinvert, joinBytes_hiByte_loByte]

theorem decodeReqI2cWrite_fields (address : Byte) {data : List Byte} (stop : Bool)
    (hdata : data.length ≤ maxI2cData) :
    decodeReqI2cWrite c (address :: i2cFlags c stop :: data) = .ok (.reqI2cWrite address data stop) := by
  obtain ⟨-, -, hi2c, -⟩ := flagsBytesCarryTheirFields
  obtain ⟨hstop, -⟩ := hi2c c stop
  simp only [decodeReqI2cWrite, flagField, hstop, if_pos hdata]

/-! ### Response bodies (R76, R81) -/

theorem decodeRspRead_value (value : Word) : decodeRspRead [hiByte value, loByte value] = .ok (.rspRead value) := by
  rw [decodeRspRead, joinBytes_hiByte_loByte]

/-! ### Frames (R70, R71, R73) -/

/-- The body's length cuts the bytes after LEN where the body ends. -/
theorem decodeFrameTail_length (sender receiver : Byte) (body : List Byte) (checksum : Word) (endByte : Byte) :
    decodeFrameTail sender receiver body.length (body ++ [hiByte checksum, loByte checksum, endByte]) =
      .ok (.sdspFrame sender receiver body checksum endByte) := by
  simp [decodeFrameTail]

theorem decodeFrame_frameLayout (sender receiver : Byte) {body : List Byte} (checksum : Word) (endByte : Byte)
    (hbody : body.length ≤ maxBody) :
    decodeFrame c (frameLayout c sender receiver body checksum endByte) =
      .ok (.sdspFrame sender receiver body checksum endByte) := by
  simp [decodeFrame, frameLayout, lenField_toNat body hbody, decodeFrameTail_length]

end

/-- Settles O56, by the row of the instruction. -/
theorem decodeOfEncode : Obligations.DecodeOfEncode := by
  intro cfg i hc hi
  cases i with
  | crcClear | crcUpdate | crcRead | frameEnc | frameDec | cmdEncToggle => rfl
  | rspDecRead | rspDecWrite | rspDecToggle | rspDecI2cWrite | reservedOpc7 => rfl
  | cmdEncRead => exact decodeCmdEncRead_operands ..
  | cmdEncWrite => exact decodeCmdEncWrite_operands ..
  | cmdEncI2cWrite => exact decodeCmdEncI2cWrite_operands ..
  | reservedOpcHigh low => exact decodeOp_reservedOpcHigh low
  | reqRead => exact (decodeReqBody_requestType hc .read _).trans (decodeReqRead_fields hc ..)
  | reqWrite => exact (decodeReqBody_requestType hc .write _).trans (decodeReqWrite_fields hc ..)
  | reqToggle => exact decodeReqBody_requestType hc .toggle _
  | reqI2cWrite =>
    exact (decodeReqBody_requestType hc .i2cWrite _).trans (decodeReqI2cWrite_fields _ _ (of_decide_eq_true hi))
  | rspRead value => exact (decodeRspBody_responseType hc .read _).trans (decodeRspRead_value value)
  | rspWrite => exact decodeRspBody_responseType hc .write _
  | rspToggle => exact decodeRspBody_responseType hc .toggle _
  | rspI2cWrite => exact decodeRspBody_responseType hc .i2cWrite _
  | rspError => exact decodeRspBody_typeError hc _
  | sdspFrame => exact decodeFrame_frameLayout _ _ _ _ (of_decide_eq_true hi)

end Sys2Proof.Machine
end
